-- ==== Sys2Proof/Word.lean ====
section
/-! DEFINITION. The bit-vector types of the block (00_scope.md R7, R8): every value the spec names is an
unsigned bit vector of a stated width. -/

namespace Sys2Proof

/-- One wire or one-bit register. -/
abbrev Bit := BitVec 1

/-- The 128-bit identifier; byte lane j at bits [127-8j : 120-8j] (20_memory.md R52). -/
abbrev Identifier := BitVec 128

/-- One byte of the identifier. -/
abbrev Byte := BitVec 8

/-- One 6-bit group, the index of a symbol in the alphabet (00_scope.md R11). -/
abbrev Sextet := BitVec 6

/-- The 22 sextets, 132 bits; lane k at bits [131-6k : 126-6k] (20_memory.md R53). -/
abbrev SextetBus := BitVec 132

/-- One 8-bit character code (D4). -/
abbrev Code := BitVec 8

/-- The 22 character codes, 176 bits; lane k at bits [175-8k : 168-8k] (20_memory.md R54). -/
abbrev CharBus := BitVec 176

/-- The length of the presented token, 8 bits (D5). -/
abbrev TokenLength := BitVec 8

/-- The invalid-lane mask; bit 21-k belongs to symbol lane k (20_memory.md R55). -/
abbrev BadMask := BitVec 22

/-- The error code of the last DEC (60_exceptions.md R140). -/
abbrev ErrCode := BitVec 2

/-- The control word {rst, dec_req, enc_req} (30_encoding.md R71). -/
abbrev Ctl := BitVec 3

/-- A symbol lane, 0..21, counted from the token's left end (00_scope.md R10). -/
abbrev SymbolLane := Fin 22

/-- A byte lane, 0..15, the index in the identifier's 16-byte array (00_scope.md R10). -/
abbrev ByteLane := Fin 16

end Sys2Proof
end

