-- ==== Sys2Proof/Machine/Operands.lean ====
section
/-! DEFINITION. The lanes of the buses: how an operand is cut into lanes and how lanes are joined into a bus
(20_memory.md R52 to R55). Slicing and concatenation only: no operand is extended, scaled or shifted by a variable
amount (30_encoding.md R73, 41_encode.md R107). -/

namespace Sys2Proof.Machine

/-- Concatenation of `n` lanes of `w` bits, `{f 0, f 1, ..., f (n-1)}`: lane 0 in the most significant bits
(00_scope.md R8, R10). -/
def packLanes {w : Nat} : (n : Nat) → (Fin n → BitVec w) → BitVec (w * n)
  | 0, _ => 0#0
  | n + 1, f => packLanes n (fun k => f k.castSucc) ++ f (Fin.last n)

/-- Byte lane j of an identifier: bits [127-8j : 120-8j] (20_memory.md R52). -/
def byteLane (id : Identifier) (j : ByteLane) : Byte := id.extractLsb' (120 - 8 * j.val) 8

/-- Sextet lane k: bits [131-6k : 126-6k] (20_memory.md R53). -/
def sextetLane (w : SextetBus) (k : SymbolLane) : Sextet := w.extractLsb' (126 - 6 * k.val) 6

/-- Symbol lane k: bits [175-8k : 168-8k] (20_memory.md R54). -/
def symbolLane (t : CharBus) (k : SymbolLane) : Code := t.extractLsb' (168 - 8 * k.val) 8

/-- The mask bit of symbol lane k: bit 21-k (20_memory.md R55). -/
def maskLane (m : BadMask) (k : SymbolLane) : Bit := m.extractLsb' (21 - k.val) 1

/-- The identifier with these bytes, byte 0 in the most significant bits (20_memory.md R52). -/
def packBytes (f : ByteLane → Byte) : Identifier := packLanes 16 f

/-- `{s_0, ..., s_21}` (41_encode.md R102). -/
def packSextets (f : SymbolLane → Sextet) : SextetBus := packLanes 22 f

/-- `{c_0, ..., c_21}` (41_encode.md R102). -/
def packChars (f : SymbolLane → Code) : CharBus := packLanes 22 f

/-- One bit per lane, lane 0 in the most significant bit (20_memory.md R55). -/
def packMask (f : SymbolLane → Bit) : BadMask := packLanes 22 f

/-- The padding bits, the 4 low-order bits of sextet 21 (00_scope.md R11, C1): bits [3:0] of the bus. -/
def paddingBits (w : SextetBus) : BitVec 4 := w.extractLsb' 0 4

/-- The payload bits of the bus, [131:4] (42_decode.md R122). -/
def payloadBits (w : SextetBus) : Identifier := w.extractLsb' 4 128

end Sys2Proof.Machine
end

