-- ==== Sys2Proof/Config.lean ====
section
/-! DEFINITION. What is fixed for the machine: the spec's value of its one parameter (00_scope.md R6), the token
length (R7), and the free values of the registers at power-up (10_state.md R25). -/

namespace Sys2Proof.Config

/-- The value the spec fixes for `STRICT_PADDING`: 1 (00_scope.md R6, D6). Both values are modelled: the machine
reads the parameter from `State.STRICT_PADDING` (assumption log 3), and this constant only says what
`State.reset` holds there. -/
def specStrictPadding : Bool := true

/-- N_SYM (00_scope.md R7): the one length DEC accepts (60_exceptions.md R141). -/
abbrev tokenLength : TokenLength := 22#8

/-! The registers before the first reset edge hold "an unspecified value", "a free draw per register bit, under
no law" (10_state.md R25, D13). Each is an opaque constant, applied to the number of the draw; nothing can evaluate it (assumption log 7). -/

/-- Free value of `E_VLD` at power-up number `draw`. -/
opaque powerUpEncVld (draw : Nat) : Bit

/-- Free value of `E_SEX` at power-up number `draw`. -/
opaque powerUpEncSex (draw : Nat) : SextetBus

/-- Free value of `E_CHR` at power-up number `draw`. -/
opaque powerUpEncChr (draw : Nat) : CharBus

/-- Free value of `D_VLD` at power-up number `draw`. -/
opaque powerUpDecVld (draw : Nat) : Bit

/-- Free value of `D_OK` at power-up number `draw`. -/
opaque powerUpDecOk (draw : Nat) : Bit

/-- Free value of `D_ERR` at power-up number `draw`. -/
opaque powerUpDecErr (draw : Nat) : ErrCode

/-- Free value of `D_ID` at power-up number `draw`. -/
opaque powerUpDecId (draw : Nat) : Identifier

/-- Free value of `D_SEX` at power-up number `draw`. -/
opaque powerUpDecSex (draw : Nat) : SextetBus

/-- Free value of `D_BAD` at power-up number `draw`. -/
opaque powerUpDecBad (draw : Nat) : BadMask

end Sys2Proof.Config
end

