-- ==== Sys2Proof/Syntax.lean ====
section
/-! DEFINITION. The operations (one constructor per row of spec/opcode_table.json) and the input line the host
drives at one active edge, which is what carries them. -/

namespace Sys2Proof

/-- The operations of the block (30_encoding.md R74). Two of them, one per channel, happen at every active edge
with `rst` = 0; RESET alone happens with `rst` = 1. -/
inductive Instr where
  /-- ENC, encode an identifier (41_encode.md R100). -/
  | enc (id : Identifier)
  /-- ENC_IDLE, an edge without an encode request (41_encode.md R101). -/
  | encIdle
  /-- DEC, decode a token (42_decode.md R120). -/
  | dec (len : TokenLength) (tok : CharBus)
  /-- DEC_IDLE, an edge without a decode request (42_decode.md R121). -/
  | decIdle
  /-- RESET (70_reset_and_hazards.md R160). -/
  | reset
deriving DecidableEq, Repr

/-- The input ports that are sampled at an active edge (10_state.md R22). -/
inductive InputPort where
  | rst
  | enc_req
  | enc_id
  | dec_req
  | dec_len
  | dec_tok
deriving DecidableEq, Repr

/-- Everything the host drives at one active edge (10_state.md R22, 30_encoding.md R78).
A port is `none` when at least one of its bits is undefined (X or Z): every bus is sampled whole
(20_memory.md R59), so no finer distinction can be observed (assumption log 4). -/
structure EdgeInput where
  rst : Option Bit
  dec_req : Option Bit
  enc_req : Option Bit
  enc_id : Option Identifier
  dec_len : Option TokenLength
  dec_tok : Option CharBus
  /-- NOT a port: the character codes of the token the host means to present, where the line says so. It is
  used only to refuse the runs of a host that breaks its duties (93_implementation_defined.md I11, I12;
  assumption log 12). -/
  text : Option (List Nat)
deriving DecidableEq, Repr

/-- Why an input line has no meaning. -/
inductive InputReject where
  /-- A request bit, or a sampled data port, is not driven to defined values (30_encoding.md R80). Safe. -/
  | undefinedInput (port : InputPort)
  /-- The host's token does not have 22 characters but is presented with `dec_len` = 22
  (93_implementation_defined.md I11, 70_reset_and_hazards.md R164). Safe. -/
  | lengthNotSaturated
  /-- The host presents a character above 0xFF as a code the decoding table accepts
  (93_implementation_defined.md I12, 70_reset_and_hazards.md R165). Safe. -/
  | wideCharacterAccepted
deriving DecidableEq, Repr

/-- The line with no request: every request bit 0 and no data port driven (30_encoding.md R78, IDLE). -/
def idleLine : EdgeInput :=
  { rst := some 0#1, dec_req := some 0#1, enc_req := some 0#1, enc_id := none, dec_len := none,
    dec_tok := none, text := none }

end Sys2Proof
end

