-- ==== Sys2Proof/Machine/State.lean ====
section
/-! DEFINITION. The state of the machine: the nine registers of 10_state.md R24 under the spec's names, the
parameter `STRICT_PADDING`, and the host's remaining input lines; the reasons a step can stop; reset and power-up. -/

namespace Sys2Proof.Machine

/-- The result of `Encode` (41_encode.md R102). -/
structure EncResult where
  sex : SextetBus
  chr : CharBus
deriving DecidableEq, Repr

/-- The result of `Decode` (42_decode.md R122). -/
structure DecResult where
  ok : Bit
  err : ErrCode
  id : Identifier
  sex : SextetBus
  bad : BadMask
deriving DecidableEq, Repr

/-- The output ports (10_state.md R23). -/
structure Outputs where
  enc_vld : Bit
  enc_sex : SextetBus
  enc_chr : CharBus
  dec_vld : Bit
  dec_ok : Bit
  dec_err : ErrCode
  dec_id : Identifier
  dec_sex : SextetBus
  dec_bad : BadMask
deriving DecidableEq, Repr

/-- The whole machine. "No other register exists" beside the nine (10_state.md R24); the last two fields are the
model's own. -/
structure State where
  /-- 1 after an edge that performed ENC (R100, R101). -/
  E_VLD : Bit
  /-- The 22 sextets of the last ENC (R100). -/
  E_SEX : SextetBus
  /-- The 22 characters of the last ENC (R100). -/
  E_CHR : CharBus
  /-- 1 after an edge that performed DEC (R120, R121). -/
  D_VLD : Bit
  /-- 1 when the last DEC succeeded (R120). -/
  D_OK : Bit
  /-- The error code of the last DEC (R140). -/
  D_ERR : ErrCode
  /-- The identifier of the last DEC, 0 unless it succeeded (R120). -/
  D_ID : Identifier
  /-- The sextets the last DEC looked up, 0 unless it succeeded (R120). -/
  D_SEX : SextetBus
  /-- The invalid lanes of the last DEC (R142). -/
  D_BAD : BadMask
  /-- The elaboration parameter of 00_scope.md R6, NOT a register (10_state.md R26): it stands here so that `exec`
  and `step` take it as an argument. No operation changes it (assumption log 3). -/
  STRICT_PADDING : Bool
  /-- What the host drives at the coming active edges, the next edge first (70_reset_and_hazards.md R172); the
  model's own field (assumption log 1). -/
  inputs : List EdgeInput
deriving DecidableEq, Repr

/-- The machine has no fault of its own: nothing traps, stops or stalls the block (60_exceptions.md R147). -/
inductive Fault where
  /-- Raised by `step` when the host has no further input line: the run has ended after the active edge of its
  last line (70_reset_and_hazards.md R172), and there is no edge to take. Safe (assumption log 6). -/
  | runEnded
deriving DecidableEq, Repr

/-- Why an edge has no meaning. -/
inductive Refusal where
  /-- Answered by `exec` for an operation that has no meaning in the model yet. None is left. Safe. -/
  | notModelled (mnemonic : String)
  /-- Answered by `step` for an input line that the spec says a model refuses (30_encoding.md R80,
  93_implementation_defined.md I4, I11, I12). Safe (assumption logs 4, 12). -/
  | inputRejected (why : InputReject)
deriving DecidableEq, Repr

/-- The machine right after reset: every register at the value of 10_state.md R24. `STRICT_PADDING` is the spec's
value (R6), and the host has presented nothing (assumption logs 1, 3). -/
def State.reset : State :=
  { E_VLD := 0#1, E_SEX := 0#132, E_CHR := 0#176, D_VLD := 0#1, D_OK := 0#1, D_ERR := 0b00#2, D_ID := 0#128,
    D_SEX := 0#132, D_BAD := 0#22, STRICT_PADDING := Config.specStrictPadding, inputs := [] }

/-- The machine after power-up, before its first reset edge: every register holds a free value
(10_state.md R25, D13; assumption log 7). DESIGN CHOICE, unsafe: an edge before the first reset edge performs its
operations on this state like any other edge, which R25 leaves open (assumption log 18). -/
def State.powerUp (draw : Nat) (strict : Bool) (lines : List EdgeInput) : State :=
  { E_VLD := Config.powerUpEncVld draw, E_SEX := Config.powerUpEncSex draw, E_CHR := Config.powerUpEncChr draw,
    D_VLD := Config.powerUpDecVld draw, D_OK := Config.powerUpDecOk draw, D_ERR := Config.powerUpDecErr draw,
    D_ID := Config.powerUpDecId draw, D_SEX := Config.powerUpDecSex draw, D_BAD := Config.powerUpDecBad draw,
    STRICT_PADDING := strict, inputs := lines }

end Sys2Proof.Machine
end

