-- ==== Sys2Proof/Machine/Tables.lean ====
section
/-! DEFINITION. The two read-only tables of the block, ELUT and DLUT, row by row as 40_tables.md prints them
(R90, R91). They are constants, not state (10_state.md R26, 20_memory.md R50, R51). -/

namespace Sys2Proof.Machine

/-- An entry of DLUT: 7 bits, {valid, value[5:0]} (40_tables.md R91). -/
structure DlutEntry where
  valid : Bit
  value : Sextet
deriving DecidableEq, Repr

/-- The 7 bits of an entry, {valid[6], value[5:0]} (20_memory.md R50). -/
def DlutEntry.bits (e : DlutEntry) : BitVec 7 := e.valid ++ e.value

/-- The entry of a code of the alphabet with index `v`. -/
def symbolEntry (v : Nat) : DlutEntry := ⟨1#1, BitVec.ofNat 6 v⟩

/-- The sentinel entry {0, 0b000000} (40_tables.md R91, D10; assumption log 11). -/
def sentinel : DlutEntry := ⟨0#1, 0#6⟩

/-- Entries 0..15 of ELUT (40_tables.md R90). -/
def elutRows0 : List Code :=
  [0x41#8, 0x42#8, 0x43#8, 0x44#8, 0x45#8, 0x46#8, 0x47#8, 0x48#8,
   0x49#8, 0x4A#8, 0x4B#8, 0x4C#8, 0x4D#8, 0x4E#8, 0x4F#8, 0x50#8]

/-- Entries 16..31 of ELUT (40_tables.md R90). -/
def elutRows1 : List Code :=
  [0x51#8, 0x52#8, 0x53#8, 0x54#8, 0x55#8, 0x56#8, 0x57#8, 0x58#8,
   0x59#8, 0x5A#8, 0x61#8, 0x62#8, 0x63#8, 0x64#8, 0x65#8, 0x66#8]

/-- Entries 32..47 of ELUT (40_tables.md R90). -/
def elutRows2 : List Code :=
  [0x67#8, 0x68#8, 0x69#8, 0x6A#8, 0x6B#8, 0x6C#8, 0x6D#8, 0x6E#8,
   0x6F#8, 0x70#8, 0x71#8, 0x72#8, 0x73#8, 0x74#8, 0x75#8, 0x76#8]

/-- Entries 48..63 of ELUT (40_tables.md R90). -/
def elutRows3 : List Code :=
  [0x77#8, 0x78#8, 0x79#8, 0x7A#8, 0x30#8, 0x31#8, 0x32#8, 0x33#8,
   0x34#8, 0x35#8, 0x36#8, 0x37#8, 0x38#8, 0x39#8, 0x5F#8, 0x2D#8]

/-- The contents of ELUT, 64 entries (40_tables.md R90). -/
def elutRom : List Code := elutRows0 ++ elutRows1 ++ elutRows2 ++ elutRows3

/-- A row of the grid of 40_tables.md R91 with no code of the alphabet. -/
def dlutRowEmpty : List DlutEntry := List.replicate 16 sentinel

/-- Codes 0x20..0x2F of DLUT (40_tables.md R91). -/
def dlutRow2 : List DlutEntry :=
  [sentinel, sentinel, sentinel, sentinel, sentinel, sentinel, sentinel, sentinel,
   sentinel, sentinel, sentinel, sentinel, sentinel, symbolEntry 63, sentinel, sentinel]

/-- Codes 0x30..0x3F of DLUT (40_tables.md R91). -/
def dlutRow3 : List DlutEntry :=
  [symbolEntry 52, symbolEntry 53, symbolEntry 54, symbolEntry 55, symbolEntry 56, symbolEntry 57, symbolEntry 58, symbolEntry 59,
   symbolEntry 60, symbolEntry 61, sentinel, sentinel, sentinel, sentinel, sentinel, sentinel]

/-- Codes 0x40..0x4F of DLUT (40_tables.md R91). -/
def dlutRow4 : List DlutEntry :=
  [sentinel, symbolEntry 0, symbolEntry 1, symbolEntry 2, symbolEntry 3, symbolEntry 4, symbolEntry 5, symbolEntry 6,
   symbolEntry 7, symbolEntry 8, symbolEntry 9, symbolEntry 10, symbolEntry 11, symbolEntry 12, symbolEntry 13, symbolEntry 14]

/-- Codes 0x50..0x5F of DLUT (40_tables.md R91). -/
def dlutRow5 : List DlutEntry :=
  [symbolEntry 15, symbolEntry 16, symbolEntry 17, symbolEntry 18, symbolEntry 19, symbolEntry 20, symbolEntry 21, symbolEntry 22,
   symbolEntry 23, symbolEntry 24, symbolEntry 25, sentinel, sentinel, sentinel, sentinel, symbolEntry 62]

/-- Codes 0x60..0x6F of DLUT (40_tables.md R91). -/
def dlutRow6 : List DlutEntry :=
  [sentinel, symbolEntry 26, symbolEntry 27, symbolEntry 28, symbolEntry 29, symbolEntry 30, symbolEntry 31, symbolEntry 32,
   symbolEntry 33, symbolEntry 34, symbolEntry 35, symbolEntry 36, symbolEntry 37, symbolEntry 38, symbolEntry 39, symbolEntry 40]

/-- Codes 0x70..0x7F of DLUT (40_tables.md R91). -/
def dlutRow7 : List DlutEntry :=
  [symbolEntry 41, symbolEntry 42, symbolEntry 43, symbolEntry 44, symbolEntry 45, symbolEntry 46, symbolEntry 47, symbolEntry 48,
   symbolEntry 49, symbolEntry 50, symbolEntry 51, sentinel, sentinel, sentinel, sentinel, sentinel]

/-- The contents of DLUT, 256 entries, the grid's rows 0x to Fx (40_tables.md R91). -/
def dlutRom : List DlutEntry :=
  dlutRowEmpty ++ dlutRowEmpty ++ dlutRow2 ++ dlutRow3 ++ dlutRow4 ++ dlutRow5 ++ dlutRow6 ++ dlutRow7 ++
  dlutRowEmpty ++ dlutRowEmpty ++ dlutRowEmpty ++ dlutRowEmpty ++ dlutRowEmpty ++ dlutRowEmpty ++ dlutRowEmpty ++ dlutRowEmpty

/-- ELUT_READ(v) (40_tables.md R93): one whole entry; every 6-bit address holds one. -/
def elutRead (v : Sextet) : Code := elutRom.getD v.toNat 0#8

/-- DLUT_READ(c) (40_tables.md R94): one whole entry; every 8-bit address holds one. -/
def dlutRead (c : Code) : DlutEntry := dlutRom.getD c.toNat sentinel

/-- The closed form of ELUT that 40_tables.md R90 gives beside the table. The block does not compute it
(41_encode.md R107). -/
def elutClosedForm (v : Sextet) : Code :=
  let n := v.toNat
  if n ≤ 25 then BitVec.ofNat 8 (0x41 + n)
  else if n ≤ 51 then BitVec.ofNat 8 (0x61 + (n - 26))
  else if n ≤ 61 then BitVec.ofNat 8 (0x30 + (n - 52))
  else if n = 62 then 0x5F#8
  else 0x2D#8

/-- The closed form of DLUT that 40_tables.md R91 gives beside the grid. -/
def dlutClosedForm (c : Code) : DlutEntry :=
  let n := c.toNat
  if 0x41 ≤ n ∧ n ≤ 0x5A then symbolEntry (n - 0x41)
  else if 0x61 ≤ n ∧ n ≤ 0x7A then symbolEntry (n - 0x61 + 26)
  else if 0x30 ≤ n ∧ n ≤ 0x39 then symbolEntry (n - 0x30 + 52)
  else if n = 0x5F then symbolEntry 62
  else if n = 0x2D then symbolEntry 63
  else sentinel

end Sys2Proof.Machine
end

