-- ==== Sys2Proof/Machine/Flags.lean ====
section
/-! DEFINITION. The status flags that DEC computes: the invalid-lane mask, the error codes and the record each
verdict leaves (10_state.md R29, 60_exceptions.md R140 to R143). The two `*_VLD` flags are constants of their
operations (`Machine/Ops.lean`). -/

namespace Sys2Proof.Machine

/-- No error (60_exceptions.md R140). -/
def errNone : ErrCode := 0b00#2

/-- InvalidLength (60_exceptions.md R140, R141). -/
def errInvalidLength : ErrCode := 0b01#2

/-- InvalidSymbol (60_exceptions.md R140, R142). -/
def errInvalidSymbol : ErrCode := 0b10#2

/-- InvalidPadding (60_exceptions.md R140, R143). -/
def errInvalidPadding : ErrCode := 0b11#2

/-- `{v_k, s_k} = DLUT_READ(c_k)` of symbol lane k; each lane's check is independent (42_decode.md R122, R123). -/
def laneEntry (tok : CharBus) (k : SymbolLane) : DlutEntry := dlutRead (symbolLane tok k)

/-- `bad = {~v_0, ..., ~v_21}`: it marks every invalid lane, not only the first (42_decode.md R122, R123). -/
def badLanes (tok : CharBus) : BadMask := packMask fun k => ~~~ (laneEntry tok k).valid

/-- The record of a failed decode: no identifier and no sextets are left visible (42_decode.md R120, D8). -/
def failedDecode (err : ErrCode) (bad : BadMask) : DecResult :=
  { ok := 0#1, err := err, id := 0#128, sex := 0#132, bad := bad }

/-- The record of a successful decode of the sextets `w`; the padding bits are discarded (42_decode.md R122). -/
def successfulDecode (w : SextetBus) : DecResult :=
  { ok := 1#1, err := errNone, id := payloadBits w, sex := w, bad := 0#22 }

end Sys2Proof.Machine
end

