-- ==== Sys2Proof/Machine/Ops.lean ====
section
/-! DEFINITION. The named operations over the registers: each writes whole registers at one active edge
(20_memory.md R59). The block has no writable memory (20_memory.md R51; assumption log 16), and no trap mechanism,
so there is no exception entry and no return from one (60_exceptions.md R147, R148): a decode error is a value
written by `writeDecResult`. -/

namespace Sys2Proof.Machine

/-- What ENC writes (41_encode.md R100). -/
def writeEncResult (r : EncResult) (s : State) : State :=
  { s with E_SEX := r.sex, E_CHR := r.chr, E_VLD := 1#1 }

/-- What ENC_IDLE writes (41_encode.md R101). -/
def clearEncValid (s : State) : State := { s with E_VLD := 0#1 }

/-- What DEC writes, whatever the verdict (42_decode.md R120). -/
def writeDecResult (r : DecResult) (s : State) : State :=
  { s with D_OK := r.ok, D_ERR := r.err, D_ID := r.id, D_SEX := r.sex, D_BAD := r.bad, D_VLD := 1#1 }

/-- What DEC_IDLE writes (42_decode.md R121). -/
def clearDecValid (s : State) : State := { s with D_VLD := 0#1 }

/-- What RESET writes: every register of 10_state.md R24 (70_reset_and_hazards.md R160). The ROMs and
`STRICT_PADDING` are as they always are (10_state.md R26). -/
def resetRegisters (s : State) : State :=
  { s with E_VLD := 0#1, E_SEX := 0#132, E_CHR := 0#176, D_VLD := 0#1, D_OK := 0#1, D_ERR := 0b00#2,
           D_ID := 0#128, D_SEX := 0#132, D_BAD := 0#22 }

/-- The lines that are left after the next edge (assumption log 1). -/
def withInputs (lines : List EdgeInput) (s : State) : State := { s with inputs := lines }

/-- The output ports: each is driven only by the register beside it, and no path leads from an input port to an
output port (10_state.md R23). -/
def State.outputs (s : State) : Outputs :=
  { enc_vld := s.E_VLD, enc_sex := s.E_SEX, enc_chr := s.E_CHR, dec_vld := s.D_VLD, dec_ok := s.D_OK,
    dec_err := s.D_ERR, dec_id := s.D_ID, dec_sex := s.D_SEX, dec_bad := s.D_BAD }

end Sys2Proof.Machine
end

