-- ==== Sys2Proof/Machine/Decoder.lean ====
section
/-! DEFINITION. The decoder channel: `Decode`, its window form, DEC and DEC_IDLE (42_decode.md). -/

namespace Sys2Proof.Machine

/-- `W = {s_0, ..., s_21}`, the sextets looked up (42_decode.md R122). -/
def lookedUpSextets (tok : CharBus) : SextetBus := packSextets fun k => (laneEntry tok k).value

/-- `Decode(len, tok)` under the parameter `STRICT_PADDING` = `strict` (42_decode.md R122): the length is checked
first, then every lane, then the padding bits (60_exceptions.md R146). -/
def decodeToken (strict : Bool) (len : TokenLength) (tok : CharBus) : DecResult :=
  if len ≠ Config.tokenLength then failedDecode errInvalidLength 0#22
  else if badLanes tok ≠ 0#22 then failedDecode errInvalidSymbol (badLanes tok)
  else if strict = true ∧ paddingBits (lookedUpSextets tok) ≠ 0b0000#4 then failedDecode errInvalidPadding 0#22
  else successfulDecode (lookedUpSextets tok)

/-- The bytes of the window of four sextets `a`, `b`, `c`, `d` (42_decode.md R124), by their place in the window. -/
def windowByte (a b c d : Sextet) (place : Fin 3) : Byte :=
  match place with
  | 0 => a ++ b.extractLsb' 4 2
  | 1 => b.extractLsb' 0 4 ++ c.extractLsb' 2 4
  | 2 => c.extractLsb' 0 2 ++ d

/-- Byte j of the identifier in the window form of 42_decode.md R124: sextets 0..19 give bytes 0..14, and the
final two symbols give byte 15. -/
def decodeWindowByte (w : SextetBus) (j : ByteLane) : Byte :=
  if j.val = 15 then sextetLane w 20 ++ (sextetLane w 21).extractLsb' 4 2
  else
    let first := 4 * (j.val / 3)
    windowByte (sextetLane w (Fin.ofNat 22 first)) (sextetLane w (Fin.ofNat 22 (first + 1)))
      (sextetLane w (Fin.ofNat 22 (first + 2))) (sextetLane w (Fin.ofNat 22 (first + 3))) (Fin.ofNat 3 j.val)

/-- DEC (42_decode.md R120). A failed DEC completes at its edge like any other: the error is a value in the result
registers and nothing traps (60_exceptions.md R147). -/
def execDec (len : TokenLength) (tok : CharBus) (s : State) : Host.Outcome State Fault Refusal :=
  .next (writeDecResult (decodeToken s.STRICT_PADDING len tok) s)

/-- DEC_IDLE (42_decode.md R121). -/
def execDecIdle (s : State) : Host.Outcome State Fault Refusal := .next (clearDecValid s)

end Sys2Proof.Machine
end

