-- ==== Sys2Proof/Machine/Encoder.lean ====
section
/-! DEFINITION. The encoder channel: `Encode`, its window form, ENC and ENC_IDLE (41_encode.md). -/

namespace Sys2Proof.Machine

/-- `W = {id, 0^4}`: the 128 payload bits, then 4 zero padding bits (41_encode.md R102, C1). -/
def paddedIdentifier (id : Identifier) : SextetBus := id ++ 0#4

/-- `Encode(id)` (41_encode.md R102): every lane is a fixed slice of `W`, mapped through ELUT. -/
def encodeId (id : Identifier) : EncResult :=
  { sex := packSextets fun k => sextetLane (paddedIdentifier id) k
    chr := packChars fun k => elutRead (sextetLane (paddedIdentifier id) k) }

/-- The sextets of the window of three bytes `a`, `b`, `c` (41_encode.md R103), by their place in the window. -/
def windowSextet (a b c : Byte) (place : Fin 4) : Sextet :=
  match place with
  | 0 => a.extractLsb' 2 6
  | 1 => a.extractLsb' 0 2 ++ b.extractLsb' 4 4
  | 2 => b.extractLsb' 0 4 ++ c.extractLsb' 6 2
  | 3 => c.extractLsb' 0 6

/-- Sextet k in the window form of 41_encode.md R103: windows 0..4 are bytes 0..14, and the final partial window
is byte 15 alone. -/
def encodeWindowSextet (id : Identifier) (k : SymbolLane) : Sextet :=
  let b15 := byteLane id 15
  if k.val = 20 then b15.extractLsb' 2 6
  else if k.val = 21 then b15.extractLsb' 0 2 ++ 0#4
  else
    let first := 3 * (k.val / 4)
    windowSextet (byteLane id (Fin.ofNat 16 first)) (byteLane id (Fin.ofNat 16 (first + 1)))
      (byteLane id (Fin.ofNat 16 (first + 2))) (Fin.ofNat 4 k.val)

/-- ENC (41_encode.md R100). -/
def execEnc (id : Identifier) (s : State) : Host.Outcome State Fault Refusal :=
  .next (writeEncResult (encodeId id) s)

/-- ENC_IDLE (41_encode.md R101). -/
def execEncIdle (s : State) : Host.Outcome State Fault Refusal := .next (clearEncValid s)

end Sys2Proof.Machine
end

