-- ==== Sys2Proof/Machine/Reset.lean ====
section
/-! DEFINITION. RESET (70_reset_and_hazards.md R160). -/

namespace Sys2Proof.Machine

/-- RESET: every register to its reset value; no input but `rst` matters (70_reset_and_hazards.md R160). -/
def execReset (s : State) : Host.Outcome State Fault Refusal := .next (resetRegisters s)

end Sys2Proof.Machine
end

