-- ==== Sys2Proof/Machine/Dispatch.lean ====
section
/-! DEFINITION. One arm per operation. -/

namespace Sys2Proof.Machine

def exec (i : Instr) (s : State) : Host.Outcome State Fault Refusal :=
  match i with
  | .enc id => Sys2Proof.Machine.execEnc id s
  | .encIdle => Sys2Proof.Machine.execEncIdle s
  | .dec len tok => Sys2Proof.Machine.execDec len tok s
  | .decIdle => Sys2Proof.Machine.execDecIdle s
  | .reset => Sys2Proof.Machine.execReset s

end Sys2Proof.Machine
end

