-- ==== Sys2Proof/WellFormed.lean ====
section
/-! DEFINITION. Which operations, and which operations at one edge, are well formed. -/

namespace Sys2Proof

/-- Every operand value of every operation is legal (30_encoding.md R75): the widths are in the types, and there
is nothing else to check. -/
def Instr.wf : Instr → Bool
  | .enc _ => true
  | .encIdle => true
  | .dec _ _ => true
  | .decIdle => true
  | .reset => true

/-- The rows of the ENC channel (30_encoding.md R74). -/
def Instr.isEncOp : Instr → Bool
  | .enc _ => true
  | .encIdle => true
  | .dec _ _ => false
  | .decIdle => false
  | .reset => false

/-- The rows of the DEC channel (30_encoding.md R74). -/
def Instr.isDecOp : Instr → Bool
  | .enc _ => false
  | .encIdle => false
  | .dec _ _ => true
  | .decIdle => true
  | .reset => false

/-- The lists of operations that one active edge can perform (30_encoding.md R70, R74): RESET alone, or one row
of the ENC channel and one row of the DEC channel. -/
def edgeOpsWf : List Instr → Bool
  | [i] => i == .reset
  | [e, d] => e.isEncOp && d.isDecOp
  | _ => false

end Sys2Proof
end

