-- ==== Sys2Proof/Decode.lean ====
section
/-! DEFINITION. Decoding one input line into the operations of its edge (30_encoding.md R70 to R74), total and
rejecting by name, and the encoder back. -/

namespace Sys2Proof

/-- A row of the opcode table: it is selected when `(ctl & mask) = match` (30_encoding.md R71). -/
structure OpRow where
  mnemonic : String
  pattern : Ctl
  mask : Ctl
deriving DecidableEq, Repr

/-- Row ENC of 30_encoding.md R74. -/
def rowEnc : OpRow := ⟨"ENC", 0b001#3, 0b101#3⟩

/-- Row ENC_IDLE of 30_encoding.md R74. -/
def rowEncIdle : OpRow := ⟨"ENC_IDLE", 0b000#3, 0b101#3⟩

/-- Row DEC of 30_encoding.md R74. -/
def rowDec : OpRow := ⟨"DEC", 0b010#3, 0b110#3⟩

/-- Row DEC_IDLE of 30_encoding.md R74. -/
def rowDecIdle : OpRow := ⟨"DEC_IDLE", 0b000#3, 0b110#3⟩

/-- Row RESET of 30_encoding.md R74. -/
def rowReset : OpRow := ⟨"RESET", 0b100#3, 0b100#3⟩

/-- The opcode table (30_encoding.md R74, spec/opcode_table.json). -/
def opcodeTable : List OpRow := [rowEnc, rowEncIdle, rowDec, rowDecIdle, rowReset]

/-- The row an operation belongs to. -/
def Instr.row : Instr → OpRow
  | .enc _ => rowEnc
  | .encIdle => rowEncIdle
  | .dec _ _ => rowDec
  | .decIdle => rowDecIdle
  | .reset => rowReset

/-- A row is selected when `(ctl & mask) = match` (30_encoding.md R71). -/
def OpRow.hits (r : OpRow) (ctl : Ctl) : Bool := ctl &&& r.mask == r.pattern

/-- `ctl = {rst, dec_req, enc_req}`: bit 2 is `rst`, bit 1 `dec_req`, bit 0 `enc_req` (30_encoding.md R71). -/
def ctlWord (rst dec_req enc_req : Bit) : Ctl := rst ++ dec_req ++ enc_req

/-- The control word of a line, where its three request bits are defined. -/
def EdgeInput.ctl (v : EdgeInput) : Option Ctl :=
  match v.rst, v.dec_req, v.enc_req with
  | some r, some d, some e => some (ctlWord r d e)
  | _, _, _ => none

/-- The ENC channel's operation at an edge with `rst` = 0 (30_encoding.md R70). `enc_id` is sampled only with
`enc_req` = 1 (10_state.md R22). -/
def decodeEncOp (ctl : Ctl) (v : EdgeInput) : Except InputReject Instr :=
  if rowEnc.hits ctl then
    match v.enc_id with
    | some id => .ok (.enc id)
    | none => .error (.undefinedInput .enc_id)
  else .ok .encIdle

/-- The DEC channel's operation at an edge with `rst` = 0 (30_encoding.md R70). `dec_len` is sampled only with
`dec_req` = 1, and `dec_tok` only when also `dec_len` = 22 (10_state.md R22). With another length the token has
no effect (30_encoding.md R75, D19), so an undefined one is replaced by zeros (assumption log 5). -/
def decodeDecOp (ctl : Ctl) (v : EdgeInput) : Except InputReject Instr :=
  if rowDec.hits ctl then
    match v.dec_len, v.dec_tok with
    | none, _ => .error (.undefinedInput .dec_len)
    | some len, some tok => .ok (.dec len tok)
    | some len, none =>
      if len = Config.tokenLength then .error (.undefinedInput .dec_tok) else .ok (.dec len 0#176)
  else .ok .decIdle

/-- Dispatch of 30_encoding.md R70 and R74: RESET takes precedence, else one operation per channel. -/
def decodeCtl (ctl : Ctl) (v : EdgeInput) : Except InputReject (List Instr) :=
  if rowReset.hits ctl then .ok [.reset]
  else
    match decodeEncOp ctl v, decodeDecOp ctl v with
    | .ok e, .ok d => .ok [e, d]
    | .error r, _ => .error r
    | .ok _, .error r => .error r

/-- The operations of one active edge. An undefined request bit rejects the line (30_encoding.md R80); the three
request bits are sampled at every active edge (10_state.md R22; assumption log 4). -/
def decodeEdge (v : EdgeInput) : Except InputReject (List Instr) :=
  match v.rst, v.dec_req, v.enc_req with
  | none, _, _ => .error (.undefinedInput .rst)
  | some _, none, _ => .error (.undefinedInput .dec_req)
  | some _, some _, none => .error (.undefinedInput .enc_req)
  | some r, some d, some e => decodeCtl (ctlWord r d e) v

/-- Put one operation on a line: its request bit and its operands (30_encoding.md R72, R78). -/
def placeOp (v : EdgeInput) : Instr → EdgeInput
  | .enc id => { v with enc_req := some 1#1, enc_id := some id }
  | .encIdle => { v with enc_req := some 0#1 }
  | .dec len tok => { v with dec_req := some 1#1, dec_len := some len, dec_tok := some tok }
  | .decIdle => { v with dec_req := some 0#1 }
  | .reset => { v with rst := some 1#1 }

/-- The line that performs these operations at one edge; a field not used is left undriven, the notation's `-`
(30_encoding.md R78). -/
def encodeEdge (ops : List Instr) : EdgeInput := ops.foldl placeOp idleLine

/-- The line that performs one operation; the other channel is idle. -/
def encode (i : Instr) : EdgeInput := encodeEdge [i]

/-- The line whose control word is bits 2..0 of `w` and whose data ports all carry zeros. -/
def lineOfWord (w : Nat) : EdgeInput :=
  let ctl := BitVec.ofNat 3 w
  { rst := some (ctl.extractLsb' 2 1), dec_req := some (ctl.extractLsb' 1 1),
    enc_req := some (ctl.extractLsb' 0 1), enc_id := some 0#128, dec_len := some 0#8, dec_tok := some 0#176,
    text := none }

/-- One operation out of an edge's: the DEC channel's when it alone is requested, else the first
(assumption log 10). -/
def primaryOp : List Instr → Option Instr
  | [.encIdle, .dec len tok] => some (.dec len tok)
  | i :: _ => some i
  | [] => none

/-- The operation the decoder reads from a control word numbered as spec/opcode_table.json numbers it, with
every operand bit 0. A control word has 3 bits; a number that needs more is refused. One control word is the
opcode of one operation on EACH channel (30_encoding.md R74), so one answer of `primaryOp` stands for them
(assumption log 10). -/
def decodeTableWord (_nbits w : Nat) : Option Instr :=
  if w < 8 then
    match decodeEdge (lineOfWord w) with
    | .ok ops => primaryOp ops
    | .error _ => none
  else none

end Sys2Proof
end

