-- ==== Sys2Proof/Machine/HostSide.lean ====
section
/-! DEFINITION. The host's side of the ports: how a token and an identifier are presented (20_memory.md R56,
30_encoding.md R78, R79, 70_reset_and_hazards.md R164, R165), and the lines that break the host's duties. -/

namespace Sys2Proof.Machine

/-- The length port for a token of n characters: saturated at 255, never reduced modulo 256
(70_reset_and_hazards.md R164). -/
def saturatedLength (n : Nat) : TokenLength := BitVec.ofNat 8 (min n 255)

/-- The code presented for a character: itself where it is at most 0xFF, else a sentinel code, 0xFF
(70_reset_and_hazards.md R165; assumption log 13). -/
def presentedCode (c : Nat) : Code := if c ≤ 0xFF then BitVec.ofNat 8 c else 0xFF#8

/-- The lanes for a token: character k in lane k, and 0x00 beyond its end (30_encoding.md R79). -/
def presentedToken (cs : List Nat) : CharBus :=
  packChars fun k => match cs[k.val]? with
    | some c => presentedCode c
    | none => 0x00#8

/-- RST of the notation (30_encoding.md R78). -/
def rstLine : EdgeInput := encodeEdge [.reset]

/-- ENC of the notation, the DEC channel idle (30_encoding.md R78). -/
def encLine (id : Identifier) : EdgeInput := encodeEdge [.enc id, .decIdle]

/-- DEC of the notation, the ENC channel idle (30_encoding.md R78). -/
def decLine (len : TokenLength) (tok : CharBus) : EdgeInput := encodeEdge [.encIdle, .dec len tok]

/-- A line holding both an ENC and a DEC, `ctl` = 0b011 (30_encoding.md R78). -/
def encDecLine (id : Identifier) (len : TokenLength) (tok : CharBus) : EdgeInput :=
  encodeEdge [.enc id, .dec len tok]

/-- DECS "<string>" of the notation (30_encoding.md R79), the string given by its character codes. -/
def decsLine (cs : List Nat) : EdgeInput :=
  { decLine (saturatedLength cs.length) (presentedToken cs) with text := some cs }

/-- IDLE*n of the notation (30_encoding.md R79). -/
def idleLines (n : Nat) : List EdgeInput := List.replicate n idleLine

/-- The five fields of a GUID written AAAAAAAA-BBBB-CCCC-DDDD-EEEEEEEEEEEE (20_memory.md R56). -/
structure Guid where
  a : BitVec 32
  b : BitVec 16
  c : BitVec 16
  d : BitVec 16
  e : BitVec 48
deriving DecidableEq, Repr

/-- Byte j of a GUID's array: fields A, B and C least significant byte first, D and E most significant byte first
(20_memory.md R56, C4). -/
def guidByte (g : Guid) (j : ByteLane) : Byte :=
  if j.val < 4 then g.a.extractLsb' (8 * j.val) 8
  else if j.val < 6 then g.b.extractLsb' (8 * (j.val - 4)) 8
  else if j.val < 8 then g.c.extractLsb' (8 * (j.val - 6)) 8
  else if j.val < 10 then g.d.extractLsb' (8 - 8 * (j.val - 8)) 8
  else g.e.extractLsb' (40 - 8 * (j.val - 10)) 8

/-- The identifier of a GUID (20_memory.md R56). -/
def guidIdentifier (g : Guid) : Identifier := packBytes (guidByte g)

/-- ENCG <guid-text> of the notation (30_encoding.md R79), the text given by its five fields (assumption log 14). -/
def encgLine (g : Guid) : EdgeInput := encLine (guidIdentifier g)

/-- Does this line perform a DEC, so that its token is looked up? -/
def performsDec (v : EdgeInput) : Bool := v.rst == some 0#1 && v.dec_req == some 1#1

/-- Is some character of the text above 0xFF and yet presented as a code the decoding table accepts? -/
def acceptsWideCharacter (cs : List Nat) (tok : CharBus) : Bool :=
  (List.finRange 22).any fun k =>
    decide (0xFF < cs.getD k.val 0) && (dlutRead (symbolLane tok k)).valid == 1#1

/-- The host duty a line breaks, where it says which token the host means to present: a true length other than
22 presented as 22 (93_implementation_defined.md I11), or a character above 0xFF that the table would accept
(I12). Of a DEC with another length no lane is looked up, so nothing is checked (assumption log 12). -/
def hostDutyBroken (v : EdgeInput) : Option InputReject :=
  match v.text, v.dec_tok with
  | some cs, some tok =>
    if performsDec v && v.dec_len == some Config.tokenLength then
      if cs.length ≠ 22 then some .lengthNotSaturated
      else if acceptsWideCharacter cs tok then some .wideCharacterAccepted
      else none
    else none
  | _, _ => none

end Sys2Proof.Machine
end

