-- ==== Sys2Proof/Machine/Step.lean ====
section
/-! DEFINITION. One step is one active edge (10_state.md R21, 30_encoding.md R70). -/

namespace Sys2Proof.Machine

/-- The operations of a line: the line is refused by name where the spec says a model refuses it, else decoded
(30_encoding.md R70, R80, 93_implementation_defined.md I4, I11, I12). -/
def sampleEdge (v : EdgeInput) : Except InputReject (List Instr) :=
  match decodeEdge v with
  | .error r => .error r
  | .ok ops =>
    match hostDutyBroken v with
    | some r => .error r
    | none => .ok ops

/-- Perform the operations of one edge. The two channels write disjoint registers and read no register, so the
order of the list is not observable and the writes are those of one instant (00_scope.md R9, 20_memory.md R62;
assumption log 2). -/
def runOps : List Instr → State → Host.Outcome State Fault Refusal
  | [], s => .next s
  | i :: rest, s =>
    match exec i s with
    | .next t => runOps rest t
    | .fault r => .fault r
    | .refused r => .refused r

/-- One active edge: sample the next input line, perform its operations (30_encoding.md R70). DESIGN CHOICE, unsafe: so
too at an edge before the first reset edge, where 10_state.md R25 leaves open what a request leaves (assumption
log 18). -/
def step (s : State) : Host.Outcome State Fault Refusal :=
  match s.inputs with
  | [] => .fault .runEnded
  | v :: rest =>
    match sampleEdge v with
    | .error r => .refused (.inputRejected r)
    | .ok ops => runOps ops (withInputs rest s)

/-- `s` with the line of control word `w` (every data bit 0) as the one the next active edge samples
(assumption logs 1, 10). -/
def State.withFetchWord (s : State) (_nbits w : Nat) : State :=
  withInputs (lineOfWord w :: s.inputs.drop 1) s

end Sys2Proof.Machine
end

