-- ==== Sys2Proof/Machine/Run.lean ====
section
/-! DEFINITION. A run and its observation (70_reset_and_hazards.md R172). -/

namespace Sys2Proof.Machine

/-- The output-port values in the period after each of the next `n` edges, as far as the run goes. -/
def observeEdges : Nat → State → List Outputs
  | 0, _ => []
  | n + 1, s =>
    match step s with
    | .next t => t.outputs :: observeEdges n t
    | .fault _ => []
    | .refused _ => []

/-- The observation of a run: one list entry per active edge (70_reset_and_hazards.md R172). -/
def observation (s : State) : List Outputs := observeEdges s.inputs.length s

/-- The run of these lines from the state after its first RST line (70_reset_and_hazards.md R172). -/
def runStart (strict : Bool) (lines : List EdgeInput) : State :=
  { State.reset with STRICT_PADDING := strict, inputs := lines }

/-- How one operation changes what the encoder last encoded since the last reset (10_state.md R33.1). -/
def lastEncodedAfter (h : Option Identifier) : Instr → Option Identifier
  | .enc id => some id
  | .encIdle => h
  | .dec _ _ => h
  | .decIdle => h
  | .reset => none

/-- How one operation changes what the decoder last decoded since the last reset (10_state.md R33.3). -/
def lastDecodedAfter (h : Option (TokenLength × CharBus)) : Instr → Option (TokenLength × CharBus)
  | .enc _ => h
  | .encIdle => h
  | .dec len tok => some (len, tok)
  | .decIdle => h
  | .reset => none

/-- The encoder's data are those of `h`, the identifier of the most recent ENC since the last reset, or the reset
values if there was none (10_state.md R33.1). -/
def EncoderShows (h : Option Identifier) (s : State) : Prop :=
  match h with
  | none => s.E_SEX = 0#132 ∧ s.E_CHR = 0#176
  | some x => s.E_SEX = (encodeId x).sex ∧ s.E_CHR = (encodeId x).chr

/-- The decoder's data are those of `g`, the length and token of the most recent DEC since the last reset, decoded
under the state's own parameter, or the reset values if there was none (10_state.md R33.3). -/
def DecoderShows (g : Option (TokenLength × CharBus)) (s : State) : Prop :=
  match g with
  | none => s.D_OK = 0#1 ∧ s.D_ERR = errNone ∧ s.D_ID = 0#128 ∧ s.D_SEX = 0#132 ∧ s.D_BAD = 0#22
  | some (len, tok) =>
    s.D_OK = (decodeToken s.STRICT_PADDING len tok).ok ∧ s.D_ERR = (decodeToken s.STRICT_PADDING len tok).err ∧
    s.D_ID = (decodeToken s.STRICT_PADDING len tok).id ∧ s.D_SEX = (decodeToken s.STRICT_PADDING len tok).sex ∧
    s.D_BAD = (decodeToken s.STRICT_PADDING len tok).bad

end Sys2Proof.Machine
end

