-- ==== Sys2Proof/Safety.lean ====
section
/-! DEFINITION. What claims use: the invariant of the state (10_state.md R33, 60_exceptions.md R140) and the lines
that a run accepts. -/

namespace Sys2Proof.Machine

/-- The encoder registers hold what reset leaves, or the result of `Encode` for some identifier
(10_state.md R33.1). -/
def EncoderShowsResult (s : State) : Prop :=
  (s.E_VLD = 0#1 ∧ s.E_SEX = 0#132 ∧ s.E_CHR = 0#176) ∨
    ∃ x : Identifier, s.E_SEX = (encodeId x).sex ∧ s.E_CHR = (encodeId x).chr

/-- The decoder registers hold what reset leaves, or the result of `Decode` for some length and token
(10_state.md R33.3). -/
def DecoderShowsResult (s : State) : Prop :=
  (s.D_VLD = 0#1 ∧ s.D_OK = 0#1 ∧ s.D_ERR = errNone ∧ s.D_ID = 0#128 ∧ s.D_SEX = 0#132 ∧ s.D_BAD = 0#22) ∨
    ∃ (len : TokenLength) (tok : CharBus),
      s.D_OK = (decodeToken s.STRICT_PADDING len tok).ok ∧ s.D_ERR = (decodeToken s.STRICT_PADDING len tok).err ∧
      s.D_ID = (decodeToken s.STRICT_PADDING len tok).id ∧ s.D_SEX = (decodeToken s.STRICT_PADDING len tok).sex ∧
      s.D_BAD = (decodeToken s.STRICT_PADDING len tok).bad

/-- The invariants of 10_state.md R33 on one state. -/
structure Inv (s : State) : Prop where
  /-- R33.1. -/
  encoder : EncoderShowsResult s
  /-- R33.2, the lanes. -/
  lanes : s.E_CHR = 0#176 ∨ ∀ k : SymbolLane, symbolLane s.E_CHR k = elutRead (sextetLane s.E_SEX k)
  /-- R33.2, the padding. -/
  padding : paddingBits s.E_SEX = 0b0000#4
  /-- R33.3. -/
  decoder : DecoderShowsResult s
  /-- R33.3, after the edge of a DEC. -/
  verdict : s.D_VLD = 1#1 → (s.D_OK = 1#1 ↔ s.D_ERR = errNone)
  /-- R33.3, one direction at every point. -/
  success : s.D_OK = 1#1 → s.D_ERR = errNone
  /-- R33.4. -/
  failure : s.D_OK = 0#1 → s.D_ID = 0#128 ∧ s.D_SEX = 0#132
  /-- R33.5. -/
  badLanes : s.D_BAD ≠ 0#22 ↔ s.D_ERR = errInvalidSymbol
  /-- R33.6, the identifier. -/
  identifier : s.D_OK = 1#1 → s.D_ID = payloadBits s.D_SEX
  /-- R33.6, the padding under `STRICT_PADDING` = 1. -/
  strictPadding : s.D_OK = 1#1 → s.STRICT_PADDING = true → paddingBits s.D_SEX = 0b0000#4
  /-- R140: InvalidPadding is possible only if `STRICT_PADDING` = 1. -/
  paddingCode : s.D_ERR = errInvalidPadding → s.STRICT_PADDING = true

/-- A line that the machine accepts: it is refused neither for an undefined input nor for a broken host duty. -/
def lineAccepted (v : EdgeInput) : Bool :=
  match sampleEdge v with
  | .ok _ => true
  | .error _ => false

/-- The operations of an accepted line (of a refused one, none). -/
def lineOps (v : EdgeInput) : List Instr :=
  match sampleEdge v with
  | .ok ops => ops
  | .error _ => []

end Sys2Proof.Machine
end

