-- ==== Sys2Proof/Certificates/Slice0/Obligations.lean ====
section
/-! DEFINITION. The statements for the provers, in the order of the spec's files. Where a statement is about decoding
it holds for the value of `STRICT_PADDING` it names: a variable `strict`, or the state's own parameter. -/

open Sys2Proof Sys2Proof.Machine

/-! ## State, ports, reset (10_state.md) -/

/-- 10_state.md R24: the reset values. -/
def Obligations.ResetValuesOfEveryRegister : Prop :=
  State.reset.E_VLD = 0#1 ∧ State.reset.E_SEX = 0#132 ∧ State.reset.E_CHR = 0#176 ∧ State.reset.D_VLD = 0#1 ∧
    State.reset.D_OK = 0#1 ∧ State.reset.D_ERR = 0b00#2 ∧ State.reset.D_ID = 0#128 ∧
    State.reset.D_SEX = 0#132 ∧ State.reset.D_BAD = 0#22

/-- 10_state.md R23: each output port is driven by the register named beside it, and an input never reaches an output
without an edge. -/
def Obligations.OutputsAreDrivenOnlyByRegisters : Prop :=
  ∀ s : State,
    s.outputs.enc_vld = s.E_VLD ∧ s.outputs.enc_sex = s.E_SEX ∧ s.outputs.enc_chr = s.E_CHR ∧
    s.outputs.dec_vld = s.D_VLD ∧ s.outputs.dec_ok = s.D_OK ∧ s.outputs.dec_err = s.D_ERR ∧
    s.outputs.dec_id = s.D_ID ∧ s.outputs.dec_sex = s.D_SEX ∧ s.outputs.dec_bad = s.D_BAD ∧
    ∀ lines : List EdgeInput, (withInputs lines s).outputs = s.outputs

/-- 10_state.md R25 and 70_reset_and_hazards.md R162: from whatever the registers hold at power-up, one reset edge
leads to the reset state. -/
def Obligations.OneResetEdgeEndsPowerUp : Prop :=
  ∀ (draw : Nat) (strict : Bool) (v : EdgeInput) (rest : List EdgeInput) (d e : Bit),
    v.rst = some 1#1 → v.dec_req = some d → v.enc_req = some e →
      step (State.powerUp draw strict (v :: rest)) = .next (runStart strict rest)

/-- 10_state.md R26: the parameter is the same at every edge. The clause on the lines, that an edge uses up exactly
the first one, is from 70_reset_and_hazards.md R172 (one input vector per edge); that the lines stand in the state is
the model's choice (assumption log 1). -/
def Obligations.StepKeepsTheParameter : Prop :=
  ∀ s t : State, step s = .next t → t.STRICT_PADDING = s.STRICT_PADDING ∧ s.inputs.tail = t.inputs

/-- 10_state.md R20: what the encoder channel holds after an edge depends only on what it held and on `rst`,
`enc_req` and `enc_id`; what the decoder channel holds, only on what it held, the parameter, `rst`, `dec_req`,
`dec_len` and `dec_tok`. -/
def Obligations.ChannelsCannotObserveEachOther : Prop :=
  ∀ (s s' t t' : State) (v v' : EdgeInput) (rest rest' : List EdgeInput),
    s.inputs = v :: rest → s'.inputs = v' :: rest' → step s = .next t → step s' = .next t' → v.rst = v'.rst →
      (s.E_VLD = s'.E_VLD → s.E_SEX = s'.E_SEX → s.E_CHR = s'.E_CHR → v.enc_req = v'.enc_req →
        v.enc_id = v'.enc_id → t.E_VLD = t'.E_VLD ∧ t.E_SEX = t'.E_SEX ∧ t.E_CHR = t'.E_CHR) ∧
      (s.D_VLD = s'.D_VLD → s.D_OK = s'.D_OK → s.D_ERR = s'.D_ERR → s.D_ID = s'.D_ID → s.D_SEX = s'.D_SEX →
        s.D_BAD = s'.D_BAD → s.STRICT_PADDING = s'.STRICT_PADDING → v.dec_req = v'.dec_req →
        v.dec_len = v'.dec_len → v.dec_tok = v'.dec_tok →
          t.D_VLD = t'.D_VLD ∧ t.D_OK = t'.D_OK ∧ t.D_ERR = t'.D_ERR ∧ t.D_ID = t'.D_ID ∧ t.D_SEX = t'.D_SEX ∧
          t.D_BAD = t'.D_BAD)

/-- 10_state.md R33: the invariant holds at reset, for both values of the parameter and every run. -/
def Obligations.ResetMeetsTheInvariant : Prop :=
  Inv State.reset ∧ ∀ (strict : Bool) (lines : List EdgeInput), Inv (runStart strict lines)

/-- 10_state.md R33: every active edge keeps the invariant, from every state that meets it. -/
def Obligations.EveryEdgeKeepsTheInvariant : Prop :=
  ∀ s t : State, Inv s → step s = .next t → Inv t

/-- 10_state.md R33 items 1 and 3, for one edge and from every state: if each channel's data are those of its most
recent request since the last reset, they still are after the edge of an accepted line, whose operations become the
most recent ones. That the line stands in the state and is used up is the model's choice (assumption log 1). -/
def Obligations.EveryEdgeKeepsShowingTheMostRecentRequest : Prop :=
  ∀ (s : State) (v : EdgeInput) (rest : List EdgeInput) (h : Option Identifier)
    (g : Option (TokenLength × CharBus)),
    s.inputs = v :: rest → lineAccepted v = true → EncoderShows h s → DecoderShows g s →
      ∃ t : State, step s = .next t ∧ t.inputs = rest ∧
        EncoderShows ((lineOps v).foldl lastEncodedAfter h) t ∧
        DecoderShows ((lineOps v).foldl lastDecodedAfter g) t

/-- 10_state.md R33 items 1 and 3: after a run of accepted lines from the reset state, the encoder's data are those
of the most recent ENC since the last reset and the decoder's those of the most recent DEC, or the reset values. -/
def Obligations.RegistersShowTheMostRecentRequest : Prop :=
  ∀ (strict : Bool) (lines : List EdgeInput) (t : State),
    (∀ v ∈ lines, lineAccepted v = true) →
    Host.Core.run core lines.length (runStart strict lines) = .next t →
      (match (lines.flatMap lineOps).foldl lastEncodedAfter none with
        | none => t.E_SEX = 0#132 ∧ t.E_CHR = 0#176
        | some x => t.E_SEX = (encodeId x).sex ∧ t.E_CHR = (encodeId x).chr) ∧
      (match (lines.flatMap lineOps).foldl lastDecodedAfter none with
        | none => t.D_OK = 0#1 ∧ t.D_ERR = errNone ∧ t.D_ID = 0#128 ∧ t.D_SEX = 0#132 ∧ t.D_BAD = 0#22
        | some (len, tok) =>
          t.D_OK = (decodeToken strict len tok).ok ∧ t.D_ERR = (decodeToken strict len tok).err ∧
          t.D_ID = (decodeToken strict len tok).id ∧ t.D_SEX = (decodeToken strict len tok).sex ∧
          t.D_BAD = (decodeToken strict len tok).bad)

/-! ## Lanes and the GUID convention (20_memory.md) -/

/-- 20_memory.md R56: the bytes of a GUID's identifier, and the rule's example. -/
def Obligations.GuidBytesFollowTheMixedLayout : Prop :=
  ∀ g : Guid,
    (∀ j : Fin 4, byteLane (guidIdentifier g) (Fin.ofNat 16 j.val) = g.a.extractLsb' (8 * j.val) 8) ∧
    (∀ j : Fin 2, byteLane (guidIdentifier g) (Fin.ofNat 16 (4 + j.val)) = g.b.extractLsb' (8 * j.val) 8) ∧
    (∀ j : Fin 2, byteLane (guidIdentifier g) (Fin.ofNat 16 (6 + j.val)) = g.c.extractLsb' (8 * j.val) 8) ∧
    (∀ j : Fin 2, byteLane (guidIdentifier g) (Fin.ofNat 16 (8 + j.val)) = g.d.extractLsb' (8 - 8 * j.val) 8) ∧
    (∀ j : Fin 6, byteLane (guidIdentifier g) (Fin.ofNat 16 (10 + j.val)) = g.e.extractLsb' (40 - 8 * j.val) 8) ∧
    guidIdentifier ⟨0x2e38d121#32, 0xe607#16, 0x4f41#16, 0x81d7#16, 0xbaf92b847e93#48⟩ =
      0x21d1382e07e6414f81d7baf92b847e93#128

/-- 20_memory.md R62 and 00_scope.md R9: the two operations of one edge commute, and together they leave what each
leaves on its own channel when it reads the state from before the edge. -/
def Obligations.OperationsOfOneEdgeAreIndependent : Prop :=
  ∀ (e d : Instr) (s : State), e.isEncOp = true → d.isDecOp = true →
    runOps [e, d] s = runOps [d, e] s ∧
    ∃ te td t : State, exec e s = .next te ∧ exec d s = .next td ∧ runOps [e, d] s = .next t ∧
      t.E_VLD = te.E_VLD ∧ t.E_SEX = te.E_SEX ∧ t.E_CHR = te.E_CHR ∧
      t.D_VLD = td.D_VLD ∧ t.D_OK = td.D_OK ∧ t.D_ERR = td.D_ERR ∧ t.D_ID = td.D_ID ∧ t.D_SEX = td.D_SEX ∧
      t.D_BAD = td.D_BAD

/-! ## Dispatch (30_encoding.md) -/

/-- 30_encoding.md R74: a few control words, written out, decode to the operations of the table. The single answer
of `decodeTableWord` for a word that selects two operations is the model's choice (assumption log 10). -/
def Obligations.ControlWordsDecodeAsTheTableSays : Prop :=
  decodeEdge (lineOfWord 0b000) = .ok [.encIdle, .decIdle] ∧
  decodeEdge (lineOfWord 0b001) = .ok [.enc 0#128, .decIdle] ∧
  decodeEdge (lineOfWord 0b010) = .ok [.encIdle, .dec 0#8 0#176] ∧
  decodeEdge (lineOfWord 0b011) = .ok [.enc 0#128, .dec 0#8 0#176] ∧
  decodeEdge (lineOfWord 0b100) = .ok [.reset] ∧
  decodeEdge (lineOfWord 0b101) = .ok [.reset] ∧
  decodeEdge (lineOfWord 0b110) = .ok [.reset] ∧
  decodeEdge (lineOfWord 0b111) = .ok [.reset]

/-- 30_encoding.md R74: every control word selects exactly one row of each channel, or RESET. -/
def Obligations.EveryControlWordSelectsOneRowPerChannel : Prop :=
  ∀ ctl : Ctl,
    (rowReset.hits ctl = true ↔ ctl.extractLsb' 2 1 = 1#1) ∧
    (rowReset.hits ctl = true → rowEnc.hits ctl = false ∧ rowEncIdle.hits ctl = false ∧
      rowDec.hits ctl = false ∧ rowDecIdle.hits ctl = false) ∧
    (rowReset.hits ctl = false → (rowEnc.hits ctl ^^ rowEncIdle.hits ctl) = true ∧
      (rowDec.hits ctl ^^ rowDecIdle.hits ctl) = true)

/-- 30_encoding.md R72, R74, R78: decoding the line that encodes the well-formed operations of an edge gives them
back with every operand, and decoding answers only well-formed operations. -/
def Obligations.DecodingUndoesEncoding : Prop :=
  (∀ ops : List Instr, edgeOpsWf ops = true → decodeEdge (encodeEdge ops) = .ok ops) ∧
  (∀ (v : EdgeInput) (ops : List Instr), decodeEdge v = .ok ops → edgeOpsWf ops = true)

/-- 30_encoding.md R70: a step performs the operations its next line decodes to, in the state without that line: the
one operation, or the ENC channel's and the DEC channel's. That the second operation runs in the state the first one
leaves is the model's choice (assumption log 2): by 00_scope.md R9 and 10_state.md R21 both happen at one instant, and
`OperationsOfOneEdgeAreIndependent` says that the order cannot be seen. -/
def Obligations.StepRunsTheDecodedOperations : Prop :=
  ∀ (s : State) (v : EdgeInput) (rest : List EdgeInput) (ops : List Instr),
    s.inputs = v :: rest → decodeEdge v = .ok ops → hostDutyBroken v = none →
      step s = runOps ops (withInputs rest s) ∧
      (∀ i, ops = [i] → step s = exec i (withInputs rest s)) ∧
      (∀ e d t, ops = [e, d] → exec e (withInputs rest s) = .next t → step s = exec d t)

/-- 30_encoding.md R70: the dispatch, for every line whose ports are all defined. -/
def Obligations.EdgeDispatchesOnRequests : Prop :=
  ∀ (s : State) (rest : List EdgeInput) (r d e : Bit) (id : Identifier) (len : TokenLength) (tok : CharBus),
    s.inputs = ⟨some r, some d, some e, some id, some len, some tok, none⟩ :: rest →
      step s =
        if r = 1#1 then exec .reset (withInputs rest s)
        else runOps [if e = 1#1 then .enc id else .encIdle, if d = 1#1 then .dec len tok else .decIdle]
          (withInputs rest s)

/-- 30_encoding.md R75: a data port that is not sampled at an edge has no effect, whatever it carries, defined or
not. -/
def Obligations.UnsampledPortsHaveNoEffect : Prop :=
  ∀ (s : State) (v : EdgeInput) (rest : List EdgeInput) (id : Option Identifier) (len : Option TokenLength)
    (tok : Option CharBus),
    ((v.rst = some 1#1 ∨ v.enc_req = some 0#1) →
      step (withInputs ({ v with enc_id := id } :: rest) s) = step (withInputs (v :: rest) s)) ∧
    ((v.rst = some 1#1 ∨ v.dec_req = some 0#1) →
      step (withInputs ({ v with dec_len := len, dec_tok := tok } :: rest) s) =
        step (withInputs (v :: rest) s)) ∧
    (∀ n : TokenLength, v.dec_len = some n → n ≠ 22#8 →
      step (withInputs ({ v with dec_tok := tok } :: rest) s) = step (withInputs (v :: rest) s))

/-- 30_encoding.md R75, R169: no operation is ever refused, whatever its operands and the state. -/
def Obligations.NoOperationIsRefused : Prop :=
  ∀ (i : Instr) (s : State), i.wf = true ∧ ∃ t, exec i s = .next t

/-- 30_encoding.md R80 and 10_state.md R22: an undefined request bit, or an undefined sampled data port, is refused.
That an undefined `dec_req` or `enc_req` is refused also at an edge with `rst` = 1, where 70_reset_and_hazards.md R160
ignores the requests, is the model's choice (assumption log 4). -/
def Obligations.UndefinedSampledInputIsRefused : Prop :=
  ∀ (s : State) (v : EdgeInput) (rest : List EdgeInput), s.inputs = v :: rest →
    (v.rst = none ∨ v.dec_req = none ∨ v.enc_req = none ∨
      (v.rst = some 0#1 ∧ v.enc_req = some 1#1 ∧ v.enc_id = none) ∨
      (v.rst = some 0#1 ∧ v.dec_req = some 1#1 ∧ v.dec_len = none) ∨
      (v.rst = some 0#1 ∧ v.dec_req = some 1#1 ∧ v.dec_len = some 22#8 ∧ v.dec_tok = none)) →
    ∃ p : InputPort, step s = .refused (.inputRejected (.undefinedInput p))

/-! ## Tables (40_tables.md) -/

/-- 40_tables.md R90: ELUT's 64 entries are those of the closed form. -/
def Obligations.ElutHoldsTheAlphabet : Prop :=
  elutRom.length = 64 ∧ ∀ v : Sextet, elutRead v = elutClosedForm v

/-- 40_tables.md R91: DLUT's 256 entries: the index of the symbol, or the sentinel; 64 are valid, 192 are not; and
the closed form. -/
def Obligations.DlutHoldsIndexOrSentinel : Prop :=
  dlutRom.length = 256 ∧
  (∀ v : Sextet, dlutRead (elutRead v) = ⟨1#1, v⟩) ∧
  (∀ c : Code, (∀ v : Sextet, elutRead v ≠ c) → dlutRead c = ⟨0#1, 0#6⟩) ∧
  (dlutRom.filter fun e => e.valid == 1#1).length = 64 ∧ (dlutRom.filter fun e => e.valid == 0#1).length = 192 ∧
  (∀ c : Code, dlutRead c = dlutClosedForm c)

/-- 40_tables.md R92: the tables are inverse to each other. -/
def Obligations.TablesAreInverse : Prop :=
  (∀ v : Sextet, dlutRead (elutRead v) = ⟨1#1, v⟩) ∧
  (∀ c : Code, (dlutRead c).valid = 1#1 → elutRead (dlutRead c).value = c) ∧
  (∀ v w : Sextet, elutRead v = elutRead w → v = w) ∧
  (∀ v : Sextet, elutRead v ≠ 0x2B#8 ∧ elutRead v ≠ 0x2F#8 ∧ elutRead v ≠ 0x3D#8) ∧
  dlutRead 0x2B#8 = sentinel ∧ dlutRead 0x2F#8 = sentinel ∧ dlutRead 0x3D#8 = sentinel

/-- 40_tables.md R95: decoding is case-sensitive and accepts no code but the 64. -/
def Obligations.DecodingIsCaseSensitive : Prop :=
  (∀ n : Fin 26, dlutRead (BitVec.ofNat 8 (0x41 + n.val)) = ⟨1#1, BitVec.ofNat 6 n.val⟩ ∧
    dlutRead (BitVec.ofNat 8 (0x61 + n.val)) = ⟨1#1, BitVec.ofNat 6 (26 + n.val)⟩ ∧
    (dlutRead (BitVec.ofNat 8 (0x41 + n.val))).value ≠ (dlutRead (BitVec.ofNat 8 (0x61 + n.val))).value) ∧
  (∀ c : Code, (dlutRead c).valid = 1#1 ↔ ∃ v : Sextet, elutRead v = c) ∧
  (dlutRead 0x2B#8).valid = 0#1 ∧ (dlutRead 0x2F#8).valid = 0#1 ∧ (dlutRead 0x3D#8).valid = 0#1

/-! ## Encoder (41_encode.md) -/

/-- 41_encode.md R102: `Encode` for every identifier. -/
def Obligations.EncodeSlicesThePaddedIdentifier : Prop :=
  ∀ id : Identifier,
    (encodeId id).sex = (id ++ 0#4 : SextetBus) ∧
    ∀ k : SymbolLane, symbolLane (encodeId id).chr k = elutRead ((id ++ 0#4 : SextetBus).extractLsb' (126 - 6 * k.val) 6)

/-- 41_encode.md R103: the window form gives the same sextets: four for each window of three bytes, two for the
last byte alone. -/
def Obligations.EncodeAgreesWithTheWindowForm : Prop :=
  (∀ (id : Identifier) (k : SymbolLane), sextetLane (encodeId id).sex k = encodeWindowSextet id k) ∧
  ∀ (id : Identifier) (w : Fin 5),
    let b (i : Nat) : Byte := byteLane id (Fin.ofNat 16 (3 * w.val + i))
    let s (i : Nat) : Sextet := sextetLane (encodeId id).sex (Fin.ofNat 22 (4 * w.val + i))
    s 0 = (b 0).extractLsb' 2 6 ∧
    s 1 = (b 0).extractLsb' 0 2 ++ (b 1).extractLsb' 4 4 ∧
    s 2 = (b 1).extractLsb' 0 4 ++ (b 2).extractLsb' 6 2 ∧
    s 3 = (b 2).extractLsb' 0 6 ∧
    sextetLane (encodeId id).sex 20 = (byteLane id 15).extractLsb' 2 6 ∧
    sextetLane (encodeId id).sex 21 = (byteLane id 15).extractLsb' 0 2 ++ 0#4

/-- 41_encode.md R104: the 4 padding bits are 0, the other 128 bits are the payload, the last sextet carries its last
2 bits, and no `=` is emitted. -/
def Obligations.EncodePaddingIsFixed : Prop :=
  ∀ id : Identifier,
    (encodeId id).sex.extractLsb' 0 4 = 0b0000#4 ∧
    (encodeId id).sex.extractLsb' 4 128 = id ∧
    (sextetLane (encodeId id).sex 21).extractLsb' 4 2 = id.extractLsb' 0 2 ∧
    ∀ k : SymbolLane, symbolLane (encodeId id).chr k ≠ 0x3D#8

/-- 41_encode.md R105: every lane holds a code of the alphabet, never `+`, `/` or `=`, and `Encode` is injective. -/
def Obligations.EncodeStaysInTheAlphabetAndIsInjective : Prop :=
  (∀ (id : Identifier) (k : SymbolLane), (∃ v : Sextet, symbolLane (encodeId id).chr k = elutRead v) ∧
    symbolLane (encodeId id).chr k ≠ 0x2B#8 ∧ symbolLane (encodeId id).chr k ≠ 0x2F#8 ∧
    symbolLane (encodeId id).chr k ≠ 0x3D#8) ∧
  (∀ id : Identifier, (encodeId id).sex.extractLsb' 4 128 = id) ∧
  (∀ x y : Identifier, (encodeId x).chr = (encodeId y).chr → x = y)

/-- 41_encode.md R108: every lane goes through the same table, and lane k sees only its slice of `W`. -/
def Obligations.EncodeLanesAreIndependent : Prop :=
  (∀ (id : Identifier) (k : SymbolLane),
    symbolLane (encodeId id).chr k = elutRead (sextetLane (encodeId id).sex k)) ∧
  ∀ (x y : Identifier) (k : SymbolLane),
    (x ++ 0#4 : SextetBus).extractLsb' (126 - 6 * k.val) 6 = (y ++ 0#4 : SextetBus).extractLsb' (126 - 6 * k.val) 6 →
      sextetLane (encodeId x).sex k = sextetLane (encodeId y).sex k ∧
      symbolLane (encodeId x).chr k = symbolLane (encodeId y).chr k

/-- 41_encode.md R100: ENC completes in every state, with this next state. -/
def Obligations.EncWritesTheEncoding : Prop :=
  ∀ (id : Identifier) (s : State),
    exec (.enc id) s =
      .next { s with E_SEX := (encodeId id).sex, E_CHR := (encodeId id).chr, E_VLD := 1#1 }

/-- 41_encode.md R101: ENC_IDLE completes in every state, with this next state. -/
def Obligations.EncIdleClearsOnlyTheValidFlag : Prop :=
  ∀ s : State, exec .encIdle s = .next { s with E_VLD := 0#1 }

/-- The frame of the ENC channel's operations, ENC and ENC_IDLE: no register of the decoder, not the parameter, not
the host's lines; ENC_IDLE keeps the encoder's data too. The block has no memory that an operation could change. -/
def Obligations.EncoderOperationsFrame : Prop :=
  ∀ (i : Instr) (s t : State), i.isEncOp = true → exec i s = .next t →
    (t.D_VLD = s.D_VLD ∧ t.D_OK = s.D_OK ∧ t.D_ERR = s.D_ERR ∧ t.D_ID = s.D_ID ∧ t.D_SEX = s.D_SEX ∧
      t.D_BAD = s.D_BAD ∧ t.STRICT_PADDING = s.STRICT_PADDING ∧ t.inputs = s.inputs) ∧
    (i = .encIdle → t.E_SEX = s.E_SEX ∧ t.E_CHR = s.E_CHR)

/-! ## Decoder (42_decode.md, 60_exceptions.md) -/

/-- 42_decode.md R122: the value of `Decode` in its four cases, each given in the spec's terms. -/
def Obligations.DecodeFollowsItsFourCases : Prop :=
  ∀ (strict : Bool) (len : TokenLength) (tok : CharBus),
    let v (k : SymbolLane) : Bit := (dlutRead (symbolLane tok k)).valid
    let W : SextetBus := packSextets fun k => (dlutRead (symbolLane tok k)).value
    (len ≠ 22#8 → decodeToken strict len tok = ⟨0#1, 0b01#2, 0#128, 0#132, 0#22⟩) ∧
    (len = 22#8 → (∃ k, v k = 0#1) →
      decodeToken strict len tok = ⟨0#1, 0b10#2, 0#128, 0#132, packMask fun k => ~~~ v k⟩) ∧
    (len = 22#8 → (∀ k, v k = 1#1) → strict = true → W.extractLsb' 0 4 ≠ 0b0000#4 →
      decodeToken strict len tok = ⟨0#1, 0b11#2, 0#128, 0#132, 0#22⟩) ∧
    (len = 22#8 → (∀ k, v k = 1#1) → (strict = false ∨ W.extractLsb' 0 4 = 0b0000#4) →
      decodeToken strict len tok = ⟨1#1, 0b00#2, W.extractLsb' 4 128, W, 0#22⟩)

/-- 42_decode.md R123: bit 21-k of the mask marks lane k, for every invalid lane, and depends on that lane's
character alone; with an invalid lane nothing depends on the value fields. -/
def Obligations.EveryInvalidLaneIsMarked : Prop :=
  (∀ (strict : Bool) (tok : CharBus) (k : SymbolLane),
    (decodeToken strict 22#8 tok).bad.extractLsb' (21 - k.val) 1 = 1#1 ↔ (dlutRead (symbolLane tok k)).valid = 0#1) ∧
  (∀ (strict : Bool) (t u : CharBus) (k : SymbolLane), symbolLane t k = symbolLane u k →
    (decodeToken strict 22#8 t).bad.extractLsb' (21 - k.val) 1 =
      (decodeToken strict 22#8 u).bad.extractLsb' (21 - k.val) 1) ∧
  (∀ (strict : Bool) (t u : CharBus),
    (∀ k, (dlutRead (symbolLane t k)).valid = (dlutRead (symbolLane u k)).valid) →
    (∃ k, (dlutRead (symbolLane t k)).valid = 0#1) → decodeToken strict 22#8 t = decodeToken strict 22#8 u)

/-- 42_decode.md R124: the identifier of every successful DEC, whose sextets are those its characters look up, is
`W[131:4]` and has the bytes of the window form; the padding bits are in no byte, and with the parameter 1 they are
zero. -/
def Obligations.DecodeAgreesWithTheWindowForm : Prop :=
  ∀ (strict : Bool) (tok : CharBus), (decodeToken strict 22#8 tok).ok = 1#1 →
    let id : Identifier := (decodeToken strict 22#8 tok).id
    let s (k : Nat) : Sextet := (dlutRead (symbolLane tok (Fin.ofNat 22 k))).value
    let b (j : Nat) : Byte := byteLane id (Fin.ofNat 16 j)
    id = (packSextets fun k => s k.val).extractLsb' 4 128 ∧
    (∀ j : ByteLane, byteLane id j = decodeWindowByte (packSextets fun k => s k.val) j) ∧
    (∀ w : Fin 5,
      b (3 * w.val) = s (4 * w.val) ++ (s (4 * w.val + 1)).extractLsb' 4 2 ∧
      b (3 * w.val + 1) = (s (4 * w.val + 1)).extractLsb' 0 4 ++ (s (4 * w.val + 2)).extractLsb' 2 4 ∧
      b (3 * w.val + 2) = (s (4 * w.val + 2)).extractLsb' 0 2 ++ s (4 * w.val + 3)) ∧
    b 15 = s 20 ++ (s 21).extractLsb' 4 2 ∧
    (strict = true → (s 21).extractLsb' 0 4 = 0b0000#4)

/-- 42_decode.md R125: the round trip, for every identifier and both values of the parameter. -/
def Obligations.DecodeUndoesEncode : Prop :=
  ∀ (strict : Bool) (x : Identifier),
    decodeToken strict 22#8 (encodeId x).chr = ⟨1#1, 0b00#2, x, (encodeId x).sex, 0#22⟩

/-- 42_decode.md R126, first item: with `STRICT_PADDING` = 1 exactly the encodings are accepted, 2^128 tokens, one
for each identifier, and the last character is `A`, `Q`, `g` or `w`. -/
def Obligations.StrictDecodeAcceptsExactlyTheEncodings : Prop :=
  (∀ t : CharBus, (decodeToken true 22#8 t).ok = 1#1 ↔ ∃ x : Identifier, t = (encodeId x).chr) ∧
  (∀ (t : CharBus) (x : Identifier), t = (encodeId x).chr → (decodeToken true 22#8 t).id = x) ∧
  (∀ x : Identifier, ∃! t : CharBus, (decodeToken true 22#8 t).ok = 1#1 ∧ (decodeToken true 22#8 t).id = x) ∧
  Nat.card { t : CharBus // (decodeToken true 22#8 t).ok = 1#1 } = 2 ^ 128 ∧
  (∀ t : CharBus, (decodeToken true 22#8 t).ok = 1#1 →
    symbolLane t 21 = 0x41#8 ∨ symbolLane t 21 = 0x51#8 ∨ symbolLane t 21 = 0x67#8 ∨ symbolLane t 21 = 0x77#8)

/-- 42_decode.md R126, second item: with `STRICT_PADDING` = 0 every token of 22 alphabet codes is accepted, 2^132 of
them, 16 for each identifier; encoding the identifier gives the token back with the padding bits of its last lane
cleared. -/
def Obligations.LenientDecodeIgnoresThePadding : Prop :=
  (∀ t : CharBus, (decodeToken false 22#8 t).ok = 1#1 ↔ ∀ k, ∃ v : Sextet, symbolLane t k = elutRead v) ∧
  Nat.card { t : CharBus // (decodeToken false 22#8 t).ok = 1#1 } = 2 ^ 132 ∧
  (∀ x : Identifier,
    Nat.card { t : CharBus // (decodeToken false 22#8 t).ok = 1#1 ∧ (decodeToken false 22#8 t).id = x } = 16) ∧
  (∀ t : CharBus, (decodeToken false 22#8 t).ok = 1#1 → ∀ k : SymbolLane,
    symbolLane (encodeId (decodeToken false 22#8 t).id).chr k =
      if k = 21 then elutRead ((dlutRead (symbolLane t 21)).value.extractLsb' 4 2 ++ 0#4) else symbolLane t k)

/-- 42_decode.md R120: DEC completes in every state, with this next state, whatever the verdict; on an error the
identifier and the sextets written are zero. -/
def Obligations.DecWritesTheVerdict : Prop :=
  ∀ (len : TokenLength) (tok : CharBus) (s : State),
    exec (.dec len tok) s =
      .next { s with D_OK := (decodeToken s.STRICT_PADDING len tok).ok,
                     D_ERR := (decodeToken s.STRICT_PADDING len tok).err,
                     D_ID := (decodeToken s.STRICT_PADDING len tok).id,
                     D_SEX := (decodeToken s.STRICT_PADDING len tok).sex,
                     D_BAD := (decodeToken s.STRICT_PADDING len tok).bad,
                     D_VLD := 1#1 } ∧
    ((decodeToken s.STRICT_PADDING len tok).err ≠ 0b00#2 →
      (decodeToken s.STRICT_PADDING len tok).id = 0#128 ∧ (decodeToken s.STRICT_PADDING len tok).sex = 0#132)

/-- 42_decode.md R121: DEC_IDLE completes in every state, with this next state. -/
def Obligations.DecIdleClearsOnlyTheValidFlag : Prop :=
  ∀ s : State, exec .decIdle s = .next { s with D_VLD := 0#1 }

/-- The frame of the DEC channel's operations, DEC and DEC_IDLE: no register of the encoder, not the parameter, not
the host's lines; DEC_IDLE keeps the last verdict and data too. -/
def Obligations.DecoderOperationsFrame : Prop :=
  ∀ (i : Instr) (s t : State), i.isDecOp = true → exec i s = .next t →
    (t.E_VLD = s.E_VLD ∧ t.E_SEX = s.E_SEX ∧ t.E_CHR = s.E_CHR ∧ t.STRICT_PADDING = s.STRICT_PADDING ∧
      t.inputs = s.inputs) ∧
    (i = .decIdle → t.D_OK = s.D_OK ∧ t.D_ERR = s.D_ERR ∧ t.D_ID = s.D_ID ∧ t.D_SEX = s.D_SEX ∧ t.D_BAD = s.D_BAD)

/-- 60_exceptions.md R140: the table of the error codes, row by row: after every DEC, the cause of the code and what
the code comes with in the other registers. The other operations but RESET keep the verdict, and the reset state is
the verdict of no DEC. -/
def Obligations.ErrorCodeTableHolds : Prop :=
  (∀ (len : TokenLength) (tok : CharBus) (s : State),
    let v (k : SymbolLane) : Bit := (dlutRead (symbolLane tok k)).valid
    let W : SextetBus := packSextets fun k => (dlutRead (symbolLane tok k)).value
    ∃ t : State, exec (.dec len tok) s = .next t ∧
      (t.D_OK = 1#1 ↔ t.D_ERR = 0b00#2) ∧
      (t.D_ERR = 0b00#2 ↔
        len = 22#8 ∧ (∀ k, v k = 1#1) ∧ (s.STRICT_PADDING = true → W.extractLsb' 0 4 = 0b0000#4)) ∧
      (t.D_ERR = 0b00#2 → t.D_OK = 1#1 ∧ t.D_ID = W.extractLsb' 4 128 ∧ t.D_SEX = W ∧ t.D_BAD = 0#22) ∧
      (t.D_ERR = 0b01#2 ↔ len ≠ 22#8) ∧
      (t.D_ERR = 0b01#2 → t.D_OK = 0#1 ∧ t.D_ID = 0#128 ∧ t.D_SEX = 0#132 ∧ t.D_BAD = 0#22) ∧
      (t.D_ERR = 0b10#2 ↔ len = 22#8 ∧ ∃ k, v k = 0#1) ∧
      (t.D_ERR = 0b10#2 → t.D_OK = 0#1 ∧ t.D_ID = 0#128 ∧ t.D_SEX = 0#132 ∧ t.D_BAD ≠ 0#22 ∧
        ∀ k : SymbolLane, t.D_BAD.extractLsb' (21 - k.val) 1 = ~~~ v k) ∧
      (t.D_ERR = 0b11#2 ↔
        s.STRICT_PADDING = true ∧ len = 22#8 ∧ (∀ k, v k = 1#1) ∧ W.extractLsb' 0 4 ≠ 0b0000#4) ∧
      (t.D_ERR = 0b11#2 → t.D_OK = 0#1 ∧ t.D_ID = 0#128 ∧ t.D_SEX = 0#132 ∧ t.D_BAD = 0#22)) ∧
  (∀ (i : Instr) (s t : State), exec i s = .next t → (∀ len tok, i ≠ .dec len tok) → i ≠ .reset →
    t.D_OK = s.D_OK ∧ t.D_ERR = s.D_ERR ∧ t.D_ID = s.D_ID ∧ t.D_SEX = s.D_SEX ∧ t.D_BAD = s.D_BAD) ∧
  State.reset.D_OK = 0#1 ∧ State.reset.D_ERR = 0b00#2

/-- 60_exceptions.md R141: InvalidLength exactly when the length is not 22, whatever the token holds. -/
def Obligations.WrongLengthIsInvalidLength : Prop :=
  ∀ (strict : Bool) (len : TokenLength) (tok : CharBus),
    ((decodeToken strict len tok).err = 0b01#2 ↔ len ≠ 22#8) ∧
    (len ≠ 22#8 → (decodeToken strict len tok).bad = 0#22 ∧
      ∀ (len' : TokenLength) (tok' : CharBus), len' ≠ 22#8 → decodeToken strict len' tok' = decodeToken strict len tok)

/-- 60_exceptions.md R142: InvalidSymbol exactly when the length is 22 and some lane is invalid; the mask marks every
invalid lane. -/
def Obligations.InvalidLaneIsInvalidSymbol : Prop :=
  ∀ (strict : Bool) (len : TokenLength) (tok : CharBus),
    ((decodeToken strict len tok).err = 0b10#2 ↔
      len = 22#8 ∧ ∃ k, (dlutRead (symbolLane tok k)).valid = 0#1) ∧
    ((decodeToken strict len tok).err = 0b10#2 → ∀ k,
      (decodeToken strict len tok).bad.extractLsb' (21 - k.val) 1 = ~~~ (dlutRead (symbolLane tok k)).valid)

/-- 60_exceptions.md R143: InvalidPadding exactly when the parameter is 1, the length 22, every lane valid and the
padding bits of the last lane's index not all zero; it records nothing beyond its code. With the parameter 0 the same
token succeeds and its padding bits are discarded: the identifier is `W[131:4]`. -/
def Obligations.NonzeroPaddingIsInvalidPadding : Prop :=
  ∀ (strict : Bool) (len : TokenLength) (tok : CharBus),
    let W : SextetBus := packSextets fun k => (dlutRead (symbolLane tok k)).value
    ((decodeToken strict len tok).err = 0b11#2 ↔
      strict = true ∧ len = 22#8 ∧ (∀ k, (dlutRead (symbolLane tok k)).valid = 1#1) ∧
        (dlutRead (symbolLane tok 21)).value.extractLsb' 0 4 ≠ 0b0000#4) ∧
    ((decodeToken true len tok).err = 0b11#2 →
      (decodeToken true len tok).ok = 0#1 ∧ (decodeToken true len tok).id = 0#128 ∧
      (decodeToken true len tok).sex = 0#132 ∧ (decodeToken true len tok).bad = 0#22 ∧
      (decodeToken false len tok).ok = 1#1 ∧ (decodeToken false len tok).err = 0b00#2 ∧
      (decodeToken false len tok).id = W.extractLsb' 4 128 ∧ (decodeToken false len tok).sex = W ∧
      (decodeToken false len tok).bad = 0#22)

/-- 60_exceptions.md R146: one verdict, the first cause in the order length, symbol, padding. -/
def Obligations.FirstCauseWins : Prop :=
  ∀ (strict : Bool) (len : TokenLength) (tok : CharBus),
    (decodeToken strict len tok).err =
      if len ≠ 22#8 then 0b01#2
      else if ∃ k, (dlutRead (symbolLane tok k)).valid = 0#1 then 0b10#2
      else if strict = true ∧ (dlutRead (symbolLane tok 21)).value.extractLsb' 0 4 ≠ 0b0000#4 then 0b11#2
      else 0b00#2

/-- 60_exceptions.md R148: no error state is sticky: what a DEC leaves on its channel does not depend on what was
there. -/
def Obligations.ErrorsAreNotSticky : Prop :=
  ∀ (len : TokenLength) (tok : CharBus) (s s' : State), s.STRICT_PADDING = s'.STRICT_PADDING →
    ∃ t t' : State, exec (.dec len tok) s = .next t ∧ exec (.dec len tok) s' = .next t' ∧
      t.D_VLD = t'.D_VLD ∧ t.D_OK = t'.D_OK ∧ t.D_ERR = t'.D_ERR ∧ t.D_ID = t'.D_ID ∧ t.D_SEX = t'.D_SEX ∧
      t.D_BAD = t'.D_BAD

/-! ## Reset, timing, the host (70_reset_and_hazards.md) -/

/-- 70_reset_and_hazards.md R160: RESET completes in every state, with this next state. -/
def Obligations.ResetClearsEveryRegister : Prop :=
  ∀ s : State,
    exec .reset s =
      .next { s with E_VLD := 0#1, E_SEX := 0#132, E_CHR := 0#176, D_VLD := 0#1, D_OK := 0#1, D_ERR := 0b00#2,
                     D_ID := 0#128, D_SEX := 0#132, D_BAD := 0#22 }

/-- 70_reset_and_hazards.md R160 and 10_state.md R24, R26: at an edge with `rst` = 1 requests and data are ignored,
the registers take their reset values, and the parameter stays. -/
def Obligations.ResetEdgeDropsRequests : Prop :=
  ∀ (s : State) (v : EdgeInput) (rest : List EdgeInput) (d e : Bit),
    s.inputs = v :: rest → v.rst = some 1#1 → v.dec_req = some d → v.enc_req = some e →
      step s = .next { State.reset with STRICT_PADDING := s.STRICT_PADDING, inputs := rest }

/-- 70_reset_and_hazards.md R166: a request at an edge shows after that edge; a DEC at the next edge that takes
`enc_chr` decodes the encoding, and a DEC at the same edge takes the earlier `enc_chr`. -/
def Obligations.FeedbackDecodesTheEarlierEdge : Prop :=
  ∀ (s : State) (x : Identifier) (rest : List EdgeInput),
    (∀ tok : CharBus, s.inputs = encLine x :: decLine 22#8 tok :: rest →
      ∃ t : State, step s = .next t ∧ t.outputs.enc_vld = 1#1 ∧ t.outputs.enc_chr = (encodeId x).chr ∧
        (tok = t.outputs.enc_chr →
          ∃ u : State, step t = .next u ∧ u.outputs.dec_vld = 1#1 ∧ u.outputs.dec_ok = 1#1 ∧
            u.outputs.dec_err = 0b00#2 ∧ u.outputs.dec_id = x)) ∧
    (s.inputs = encDecLine x 22#8 s.outputs.enc_chr :: rest →
      ∃ t : State, step s = .next t ∧ t.outputs.enc_chr = (encodeId x).chr ∧
        t.outputs.dec_id = (decodeToken s.STRICT_PADDING 22#8 s.E_CHR).id ∧
        t.outputs.dec_err = (decodeToken s.STRICT_PADDING 22#8 s.E_CHR).err)

/-- 70_reset_and_hazards.md R167: a result lasts exactly until its channel's next request or reset. -/
def Obligations.ResultsHoldUntilTheNextRequest : Prop :=
  ∀ (s t : State) (v : EdgeInput) (rest : List EdgeInput), s.inputs = v :: rest → step s = .next t →
    (v.rst = some 0#1 → v.enc_req = some 0#1 → t.E_SEX = s.E_SEX ∧ t.E_CHR = s.E_CHR) ∧
    (v.rst = some 0#1 → v.dec_req = some 0#1 → t.D_OK = s.D_OK ∧ t.D_ERR = s.D_ERR ∧ t.D_ID = s.D_ID ∧
      t.D_SEX = s.D_SEX ∧ t.D_BAD = s.D_BAD)

/-- 70_reset_and_hazards.md R168: a valid flag is 1 after an edge exactly when that edge performed the request of its
channel. -/
def Obligations.ValidFlagsArePulses : Prop :=
  ∀ (s t : State) (v : EdgeInput) (rest : List EdgeInput), s.inputs = v :: rest → step s = .next t →
    (t.E_VLD = 1#1 ↔ v.rst = some 0#1 ∧ v.enc_req = some 1#1) ∧
    (t.E_VLD = 0#1 ↔ ¬ (v.rst = some 0#1 ∧ v.enc_req = some 1#1)) ∧
    (t.D_VLD = 1#1 ↔ v.rst = some 0#1 ∧ v.dec_req = some 1#1) ∧
    (t.D_VLD = 0#1 ↔ ¬ (v.rst = some 0#1 ∧ v.dec_req = some 1#1))

/-- 70_reset_and_hazards.md R164: the length port is saturated, so a length other than 22 never reaches the block
as 22. -/
def Obligations.PresentedLengthIsSaturated : Prop :=
  (∀ n : Nat, n < 255 → (saturatedLength n).toNat = n) ∧ (∀ n : Nat, 255 ≤ n → saturatedLength n = 255#8) ∧
  (∀ n : Nat, n ≠ 22 → saturatedLength n ≠ 22#8)

/-- 70_reset_and_hazards.md R165: a character is presented as itself where it fits, else as a sentinel code. That the
code is 0xFF is the spec's example, which the model takes (assumption log 13). -/
def Obligations.WideCharactersArePresentedAsSentinels : Prop :=
  (∀ c : Nat, c ≤ 0xFF → (presentedCode c).toNat = c) ∧
  (∀ c : Nat, 0xFF < c → dlutRead (presentedCode c) = ⟨0#1, 0#6⟩)

/-- 30_encoding.md R79 with R122, R140 to R143, R164, R165: a string presented by DECS is never refused, and it gets
the verdict of the string itself, wide characters included: the error code from its length and its characters, the
mask of the characters outside the alphabet, and, where it succeeds, the identifier of its characters' indices. That
DECS presents a character above 0xFF as 0xFF is the model's choice (assumption log 13), and so is that a DECS line
says which string it means, which gives `step` something to check (assumption log 12). -/
def Obligations.PresentedStringsGetTheirOwnVerdict : Prop :=
  ∀ (cs : List Nat) (s : State) (rest : List EdgeInput), s.inputs = decsLine cs :: rest →
    let spelled (idx : SymbolLane → Sextet) : List Nat := List.ofFn fun k => (elutRead (idx k)).toNat
    ∃ t : State, step s = .next t ∧ t.D_VLD = 1#1 ∧
      (t.D_ERR = 0b01#2 ↔ cs.length ≠ 22) ∧
      (t.D_ERR = 0b10#2 ↔ cs.length = 22 ∧ ∃ c ∈ cs, ∀ v : Sextet, (elutRead v).toNat ≠ c) ∧
      (t.D_ERR = 0b11#2 ↔ s.STRICT_PADDING = true ∧
        ∃ idx, cs = spelled idx ∧ (idx 21).extractLsb' 0 4 ≠ 0b0000#4) ∧
      (t.D_ERR ≠ 0b00#2 → t.D_OK = 0#1 ∧ t.D_ID = 0#128 ∧ t.D_SEX = 0#132) ∧
      (t.D_ERR = 0b10#2 → ∀ (k : SymbolLane) (c : Nat), cs[k.val]? = some c →
        (t.D_BAD.extractLsb' (21 - k.val) 1 = 1#1 ↔ ∀ v : Sextet, (elutRead v).toNat ≠ c)) ∧
      (t.D_ERR ≠ 0b10#2 → t.D_BAD = 0#22) ∧
      ∀ idx, cs = spelled idx → (s.STRICT_PADDING = false ∨ (idx 21).extractLsb' 0 4 = 0b0000#4) →
        t.D_OK = 1#1 ∧ t.D_ERR = 0b00#2 ∧ t.D_ID = (packSextets idx).extractLsb' 4 128 ∧
        t.D_SEX = packSextets idx

/-- 93_implementation_defined.md I11, I12: a line that declares its token and breaks a host duty is refused. That a
line can declare its token is the model's choice (assumption log 12). -/
def Obligations.BrokenHostDutyIsRefused : Prop :=
  ∀ (s : State) (v : EdgeInput) (rest : List EdgeInput) (ops : List Instr) (cs : List Nat) (tok : CharBus),
    s.inputs = v :: rest → decodeEdge v = .ok ops → v.rst = some 0#1 → v.dec_req = some 1#1 →
    v.dec_len = some 22#8 → v.dec_tok = some tok → v.text = some cs →
      (cs.length ≠ 22 → step s = .refused (.inputRejected .lengthNotSaturated)) ∧
      (∀ (k : SymbolLane) (c : Nat), cs.length = 22 → cs[k.val]? = some c → 0xFF < c →
        (dlutRead (symbolLane tok k)).valid = 1#1 → step s = .refused (.inputRejected .wideCharacterAccepted))

/-- 70_reset_and_hazards.md R169, R172: a run of accepted lines completes, from every state, with one observation per
edge and no line left. -/
def Obligations.RunOfAcceptedLinesCompletes : Prop :=
  ∀ s : State, (∀ v ∈ s.inputs, lineAccepted v = true) →
    ∃ t : State, Host.Core.run core s.inputs.length s = .next t ∧ t.inputs = [] ∧
      (observation s).length = s.inputs.length

/-- 70_reset_and_hazards.md R172: the run ends after its last line: there is no further edge. That the model calls
this a fault is its choice (assumption log 6). -/
def Obligations.RunEndsAfterItsLastLine : Prop :=
  ∀ s : State, s.inputs = [] → step s = .fault .runEnded
end

