-- ==== Sys2Proof/Laws/Lanes.lean ====
section
/-! SUPPORT. Lanes: joining lanes into a bus and cutting the bus into lanes undo each other, so a bus is its lanes. -/

namespace Sys2Proof.Laws

open Sys2Proof.Machine

/-- A lane of a concatenation is the lane that was put there. -/
theorem extract_packLanes {w : Nat} (n : Nat) (f : Fin n → BitVec w) (k : Fin n) :
    (packLanes n f).extractLsb' (w * (n - 1 - k.val)) w = f k := by
  induction n with
  | zero => exact k.elim0
  | succ n ih =>
    refine Fin.lastCases ?_ (fun j => ?_) k
    · apply BitVec.eq_of_getLsbD_eq
      intro i hi
      simp [packLanes, BitVec.getLsbD_append, hi]
    · have hj : j.val < n := j.isLt
      have e : n + 1 - 1 - (j.castSucc).val = (n - 1 - j.val) + 1 := by simp; omega
      rw [e, ← ih (fun k => f k.castSucc) j]
      apply BitVec.eq_of_getLsbD_eq
      intro i hi
      have hlt : ¬ w * (n - 1 - j.val + 1) + i < w := by
        rw [Nat.mul_add]; omega
      have hsub : w * (n - 1 - j.val + 1) + i - w = w * (n - 1 - j.val) + i := by
        rw [Nat.mul_add]; omega
      simp only [packLanes, BitVec.getLsbD_extractLsb', BitVec.getLsbD_append, hlt, hsub, hi,
        decide_true, Bool.true_and, if_false]

/-- A bus is the concatenation of its lanes. -/
theorem packLanes_extract {w : Nat} (n : Nat) (x : BitVec (w * n)) :
    packLanes n (fun k => x.extractLsb' (w * (n - 1 - k.val)) w) = x := by
  induction n with
  | zero => exact BitVec.eq_of_getLsbD_eq fun i hi => absurd hi (by simp)
  | succ n ih =>
    have hrest := ih (x.extractLsb' w (w * n))
    have hlanes : (fun k : Fin n => x.extractLsb' (w * (n + 1 - 1 - (k.castSucc).val)) w) =
        fun k : Fin n => (x.extractLsb' w (w * n)).extractLsb' (w * (n - 1 - k.val)) w := by
      funext k
      have hk : k.val < n := k.isLt
      apply BitVec.eq_of_getLsbD_eq
      intro i hi
      have e : n + 1 - 1 - (k.castSucc).val = (n - 1 - k.val) + 1 := by simp; omega
      have hin : w * (n - 1 - k.val) + i < w * n := by
        have hmul : w * (n - 1 - k.val + 1) ≤ w * n := Nat.mul_le_mul_left w (by omega)
        rw [Nat.mul_add] at hmul; omega
      have hsum : w + (w * (n - 1 - k.val) + i) = w * (n - 1 - k.val + 1) + i := by
        rw [Nat.mul_add]; omega
      simp only [BitVec.getLsbD_extractLsb', e, hi, hin, hsum, decide_true, Bool.true_and]
    have hlast : x.extractLsb' (w * (n + 1 - 1 - (Fin.last n).val)) w = x.extractLsb' 0 w := by
      simp
    show packLanes n (fun k : Fin n => x.extractLsb' (w * (n + 1 - 1 - (k.castSucc).val)) w) ++
      x.extractLsb' (w * (n + 1 - 1 - (Fin.last n).val)) w = x
    rw [hlanes, hrest, hlast]
    apply BitVec.eq_of_getLsbD_eq
    intro i hi
    rw [BitVec.getLsbD_append]
    by_cases h : i < w
    · simp [h]
    · have hi' : i - w < w * n := by omega
      have hback : w + (i - w) = i := by omega
      simp [h, hi', hback]

@[simp] theorem sextetLane_packSextets (f : SymbolLane → Sextet) (k : SymbolLane) :
    sextetLane (packSextets f) k = f k := by
  rw [← extract_packLanes 22 f k]
  have e : 126 - 6 * k.val = 6 * (22 - 1 - k.val) := by omega
  exact congrArg (fun p => (packSextets f).extractLsb' p 6) e

@[simp] theorem symbolLane_packChars (f : SymbolLane → Code) (k : SymbolLane) :
    symbolLane (packChars f) k = f k := by
  rw [← extract_packLanes 22 f k]
  have e : 168 - 8 * k.val = 8 * (22 - 1 - k.val) := by omega
  exact congrArg (fun p => (packChars f).extractLsb' p 8) e

@[simp] theorem maskLane_packMask (f : SymbolLane → Bit) (k : SymbolLane) :
    maskLane (packMask f) k = f k := by
  rw [← extract_packLanes 22 f k]
  have e : 21 - k.val = 1 * (22 - 1 - k.val) := by omega
  exact congrArg (fun p => (packMask f).extractLsb' p 1) e

@[simp] theorem byteLane_packBytes (f : ByteLane → Byte) (j : ByteLane) :
    byteLane (packBytes f) j = f j := by
  rw [← extract_packLanes 16 f j]
  have e : 120 - 8 * j.val = 8 * (16 - 1 - j.val) := by omega
  exact congrArg (fun p => (packBytes f).extractLsb' p 8) e

@[simp] theorem packSextets_sextetLane (x : SextetBus) : packSextets (sextetLane x) = x := by
  refine (congrArg packSextets (funext fun k => ?_)).trans (packLanes_extract (w := 6) 22 x)
  have e : 126 - 6 * k.val = 6 * (22 - 1 - k.val) := by omega
  exact congrArg (fun p => x.extractLsb' p 6) e

@[simp] theorem packChars_symbolLane (x : CharBus) : packChars (symbolLane x) = x := by
  refine (congrArg packChars (funext fun k => ?_)).trans (packLanes_extract (w := 8) 22 x)
  have e : 168 - 8 * k.val = 8 * (22 - 1 - k.val) := by omega
  exact congrArg (fun p => x.extractLsb' p 8) e

@[simp] theorem packMask_maskLane (x : BadMask) : packMask (maskLane x) = x := by
  refine (congrArg packMask (funext fun k => ?_)).trans (packLanes_extract (w := 1) 22 x)
  have e : 21 - k.val = 1 * (22 - 1 - k.val) := by omega
  exact congrArg (fun p => x.extractLsb' p 1) e

@[simp] theorem packBytes_byteLane (x : Identifier) : packBytes (byteLane x) = x := by
  refine (congrArg packBytes (funext fun j => ?_)).trans (packLanes_extract (w := 8) 16 x)
  have e : 120 - 8 * j.val = 8 * (16 - 1 - j.val) := by omega
  exact congrArg (fun p => x.extractLsb' p 8) e

/-- Two sextet buses with the same lanes are equal. -/
theorem sextets_ext {x y : SextetBus} (h : ∀ k, sextetLane x k = sextetLane y k) : x = y := by
  rw [← packSextets_sextetLane x, ← packSextets_sextetLane y, funext h]

/-- Two character buses with the same lanes are equal. -/
theorem chars_ext {x y : CharBus} (h : ∀ k, symbolLane x k = symbolLane y k) : x = y := by
  rw [← packChars_symbolLane x, ← packChars_symbolLane y, funext h]

/-- Two masks with the same lanes are equal. -/
theorem mask_ext {x y : BadMask} (h : ∀ k, maskLane x k = maskLane y k) : x = y := by
  rw [← packMask_maskLane x, ← packMask_maskLane y, funext h]

/-- Two identifiers with the same bytes are equal. -/
theorem bytes_ext {x y : Identifier} (h : ∀ j, byteLane x j = byteLane y j) : x = y := by
  rw [← packBytes_byteLane x, ← packBytes_byteLane y, funext h]

/-- Every lane of the zero mask is 0. -/
@[simp] theorem maskLane_zero (k : SymbolLane) : maskLane 0#22 k = 0#1 := by
  revert k; decide

/-- A sextet bus is its payload and its padding bits. -/
theorem payload_append_padding (w : SextetBus) : (payloadBits w ++ paddingBits w : SextetBus) = w := by
  apply BitVec.eq_of_getLsbD_eq
  intro i hi
  rw [BitVec.getLsbD_append]
  by_cases h : i < 4
  · simp [h, paddingBits]
  · have hi' : i - 4 < 128 := by omega
    have hback : 4 + (i - 4) = i := by omega
    simp [h, payloadBits, hi', hback]

@[simp] theorem payloadBits_append (x : Identifier) (p : BitVec 4) : payloadBits (x ++ p) = x := by
  apply BitVec.eq_of_getLsbD_eq
  intro i hi
  have happ : (x ++ p).getLsbD (4 + i) = x.getLsbD i := by
    rw [BitVec.getLsbD_append]; simp
  simp only [payloadBits, BitVec.getLsbD_extractLsb', hi, decide_true, Bool.true_and]
  exact happ

@[simp] theorem paddingBits_append (x : Identifier) (p : BitVec 4) : paddingBits (x ++ p) = p := by
  apply BitVec.eq_of_getLsbD_eq
  intro i hi
  have happ : (x ++ p).getLsbD (0 + i) = p.getLsbD i := by
    rw [BitVec.getLsbD_append]; simp [hi]
  simp only [paddingBits, BitVec.getLsbD_extractLsb', hi, decide_true, Bool.true_and]
  exact happ

/-! The bits of the two-part lanes of the window forms (41_encode.md R103, 42_decode.md R124), at the width of the
lane they make. -/

theorem getLsbD_append_two_four (a : BitVec 2) (b : BitVec 4) (i : Nat) :
    BitVec.getLsbD (w := 6) (a ++ b) i = if i < 4 then b.getLsbD i else a.getLsbD (i - 4) := by
  rw [BitVec.getLsbD_append]

theorem getLsbD_append_four_two (a : BitVec 4) (b : BitVec 2) (i : Nat) :
    BitVec.getLsbD (w := 6) (a ++ b) i = if i < 2 then b.getLsbD i else a.getLsbD (i - 2) := by
  rw [BitVec.getLsbD_append]

theorem getLsbD_append_six_two (a : BitVec 6) (b : BitVec 2) (i : Nat) :
    BitVec.getLsbD (w := 8) (a ++ b) i = if i < 2 then b.getLsbD i else a.getLsbD (i - 2) := by
  rw [BitVec.getLsbD_append]

theorem getLsbD_append_four_four (a : BitVec 4) (b : BitVec 4) (i : Nat) :
    BitVec.getLsbD (w := 8) (a ++ b) i = if i < 4 then b.getLsbD i else a.getLsbD (i - 4) := by
  rw [BitVec.getLsbD_append]

theorem getLsbD_append_two_six (a : BitVec 2) (b : BitVec 6) (i : Nat) :
    BitVec.getLsbD (w := 8) (a ++ b) i = if i < 6 then b.getLsbD i else a.getLsbD (i - 6) := by
  rw [BitVec.getLsbD_append]

end Sys2Proof.Laws
end

