-- ==== Sys2Proof/Laws/Channels.lean ====
section
/-! SUPPORT. What `Encode` and `Decode` can answer, said once. -/

namespace Sys2Proof.Laws

open Sys2Proof.Machine

@[simp] theorem payloadBits_padded (id : Identifier) : payloadBits (paddedIdentifier id) = id :=
  payloadBits_append id 0#4

@[simp] theorem paddingBits_padded (id : Identifier) : paddingBits (paddedIdentifier id) = 0#4 :=
  paddingBits_append id 0#4

/-- The bits of `W`: the low four are the padding, the rest is the identifier. -/
theorem padded_getLsbD (id : Identifier) (i : Nat) :
    (paddedIdentifier id).getLsbD i = if i < 4 then false else id.getLsbD (i - 4) := by
  have happ : (id ++ 0#4).getLsbD i = if i < 4 then (0#4).getLsbD i else id.getLsbD (i - 4) := by
    rw [BitVec.getLsbD_append]
  exact happ.trans (by simp)

/-- The bits of lane k of `W`. -/
theorem padded_lane_getLsbD (id : Identifier) (k : SymbolLane) {i : Nat} (h : i < 6) :
    (sextetLane (paddedIdentifier id) k).getLsbD i =
      if 126 - 6 * k.val + i < 4 then false else id.getLsbD (126 - 6 * k.val + i - 4) := by
  simp only [sextetLane, BitVec.getLsbD_extractLsb', padded_getLsbD, h, decide_true, Bool.true_and]

/-- Joining the slices of `W` gives `W` back. -/
@[simp] theorem encodeId_sextets (id : Identifier) : (encodeId id).sex = paddedIdentifier id := by
  show packSextets (sextetLane (paddedIdentifier id)) = _
  rw [packSextets_sextetLane]

@[simp] theorem encodeId_symbolLane (id : Identifier) (k : SymbolLane) :
    symbolLane (encodeId id).chr k = elutRead (sextetLane (paddedIdentifier id) k) := by
  unfold encodeId; rw [symbolLane_packChars]

@[simp] theorem badLanes_maskLane (tok : CharBus) (k : SymbolLane) :
    maskLane (badLanes tok) k = ~~~ (laneEntry tok k).valid :=
  maskLane_packMask _ k

@[simp] theorem lookedUpSextets_lane (tok : CharBus) (k : SymbolLane) :
    sextetLane (lookedUpSextets tok) k = (laneEntry tok k).value :=
  sextetLane_packSextets _ k

/-- A wire is 0 or 1. -/
theorem bit_zero_or_one (b : Bit) : b = 0#1 ∨ b = 1#1 := by
  revert b; decide

theorem not_eq_zero_iff (b : Bit) : ~~~ b = 0#1 ↔ b = 1#1 := by
  revert b; decide

/-- The mask is zero exactly when every lane is valid. -/
theorem badLanes_eq_zero_iff (tok : CharBus) :
    badLanes tok = 0#22 ↔ ∀ k, (laneEntry tok k).valid = 1#1 := by
  constructor
  · intro h k
    rw [← not_eq_zero_iff, ← badLanes_maskLane, h, maskLane_zero]
  · intro h
    refine mask_ext fun k => ?_
    rw [badLanes_maskLane, maskLane_zero, not_eq_zero_iff]
    exact h k

/-- The padding bits of the looked-up sextets are the low bits of the last lane's index. -/
theorem paddingBits_eq_lane (w : SextetBus) : paddingBits w = (sextetLane w 21).extractLsb' 0 4 := by
  apply BitVec.eq_of_getLsbD_eq
  intro i hi
  simp [paddingBits, sextetLane, hi]

/-- `Decode` answers one of four records (42_decode.md R122); every later fact about it starts here. -/
theorem decodeToken_cases (strict : Bool) (len : TokenLength) (tok : CharBus) :
    (len ≠ 22#8 ∧ decodeToken strict len tok = failedDecode errInvalidLength 0#22) ∨
    (len = 22#8 ∧ badLanes tok ≠ 0#22 ∧ decodeToken strict len tok = failedDecode errInvalidSymbol (badLanes tok)) ∨
    (len = 22#8 ∧ badLanes tok = 0#22 ∧ strict = true ∧ paddingBits (lookedUpSextets tok) ≠ 0#4 ∧
      decodeToken strict len tok = failedDecode errInvalidPadding 0#22) ∨
    (len = 22#8 ∧ badLanes tok = 0#22 ∧ (strict = true → paddingBits (lookedUpSextets tok) = 0#4) ∧
      decodeToken strict len tok = successfulDecode (lookedUpSextets tok)) := by
  by_cases hlen : len = 22#8
  · by_cases hbad : badLanes tok = 0#22
    · by_cases hpad : strict = true ∧ paddingBits (lookedUpSextets tok) ≠ 0#4
      · exact .inr (.inr (.inl ⟨hlen, hbad, hpad.1, hpad.2, by simp [decodeToken, hlen, hbad, hpad]⟩))
      · refine .inr (.inr (.inr ⟨hlen, hbad, fun h => ?_, by simp only [decodeToken, hlen, hbad, hpad]; simp⟩))
        exact Classical.byContradiction fun hp => hpad ⟨h, hp⟩
    · exact .inr (.inl ⟨hlen, hbad, by simp [decodeToken, hlen, hbad]⟩)
  · exact .inl ⟨hlen, by simp [decodeToken, hlen]⟩

end Sys2Proof.Laws
end

