-- ==== Sys2Proof/Laws/HostSide.lean ====
section
/-! SUPPORT. What the host's presentation of a token puts on the ports, said once. -/

namespace Sys2Proof.Laws

open Sys2Proof.Machine

/-- Character k of a token stands in lane k (30_encoding.md R79). -/
theorem presentedToken_lane {cs : List Nat} {k : SymbolLane} {c : Nat} (h : cs[k.val]? = some c) :
    symbolLane (presentedToken cs) k = presentedCode c := by
  unfold presentedToken
  rw [symbolLane_packChars, h]

/-- No length other than 22 is presented as 22 (70_reset_and_hazards.md R164). -/
theorem saturatedLength_eq_iff (n : Nat) : saturatedLength n = 22#8 ↔ n = 22 := by
  refine ⟨fun h => ?_, fun h => by rw [h]; rfl⟩
  have hn := congrArg BitVec.toNat h
  simp [saturatedLength] at hn
  omega

/-- A character above 0xFF is never accepted (70_reset_and_hazards.md R165). -/
theorem presentedCode_wide {c : Nat} (h : 0xFF < c) : dlutRead (presentedCode c) = sentinel := by
  unfold presentedCode
  rw [if_neg (by omega)]
  rfl

/-- A line of DECS breaks no host duty. -/
theorem hostDutyBroken_decsLine (cs : List Nat) : hostDutyBroken (decsLine cs) = none := by
  show (if performsDec (decsLine cs) && some (saturatedLength cs.length) == some Config.tokenLength then
      if cs.length ≠ 22 then some InputReject.lengthNotSaturated
      else if acceptsWideCharacter cs (presentedToken cs) then some InputReject.wideCharacterAccepted else none
    else none) = none
  by_cases hlen : cs.length = 22
  · have haccepts : acceptsWideCharacter cs (presentedToken cs) = false := by
      unfold acceptsWideCharacter
      rw [List.any_eq_false]
      intro k _
      have hk : k.val < cs.length := by rw [hlen]; exact k.isLt
      have hget : cs[k.val]? = some cs[k.val] := List.getElem?_eq_getElem hk
      rw [presentedToken_lane hget]
      by_cases hwide : 0xFF < cs[k.val]
      · rw [presentedCode_wide hwide]; simp [sentinel]
      · simp [List.getD, hget, hwide]
    simp [haccepts, hlen]
  · have hne : saturatedLength cs.length ≠ 22#8 := mt (saturatedLength_eq_iff _).mp hlen
    simp [hne, Config.tokenLength]

end Sys2Proof.Laws
end

