-- ==== Sys2Proof/Laws/PerInstr.lean ====
section
/-! SUPPORT. Statements about every operation as syntax, one lemma per constructor. -/

namespace Sys2Proof.Laws.EncodingRow

/-- The operation's own line is well formed, its control word is defined, and that control word selects the
operation's row of the opcode table under the row's mask (30_encoding.md R71, R74). -/
def Statement (i : Instr) : Prop :=
  i.wf = true ∧ ∃ ctl, (encode i).ctl = some ctl ∧ i.row.hits ctl = true

theorem enc (id : Identifier) : Statement (.enc id) :=
  ⟨rfl, 0b001#3, rfl, (by decide : rowEnc.hits 0b001#3 = true)⟩

theorem encIdle : Statement .encIdle := ⟨rfl, _, rfl, rfl⟩

theorem dec (len : TokenLength) (tok : CharBus) : Statement (.dec len tok) :=
  ⟨rfl, 0b010#3, rfl, (by decide : rowDec.hits 0b010#3 = true)⟩

theorem decIdle : Statement .decIdle := ⟨rfl, _, rfl, rfl⟩

theorem reset : Statement .reset := ⟨rfl, _, rfl, rfl⟩

end Sys2Proof.Laws.EncodingRow
end

