-- ==== Sys2Proof/Laws/Run.lean ====
section
/-! SUPPORT. Runs through the host's interface. -/

namespace Sys2Proof.Laws

/-- A run whose first step answers a next state goes on from there. -/
theorem run_of_step (M : Host.Core) {s t : M.State} (n : Nat) (h : M.step s = .next t) :
    M.run (n + 1) s = M.run n t := by
  simp only [Host.Core.run, h]

/-- The same for the block. -/
theorem core_run_of_step {s t : Machine.State} (n : Nat) (h : Machine.step s = .next t) :
    Host.Core.run core (n + 1) s = Host.Core.run core n t :=
  run_of_step core n h

end Sys2Proof.Laws
end

