-- ==== Sys2Proof/Laws/State.lean ====
section
/-! SUPPORT. Every field after every named operation over the registers, so that no later proof unfolds a record
update. -/

namespace Sys2Proof.Laws

open Sys2Proof.Machine

@[simp] theorem writeEncResult_E_VLD (r : EncResult) (s : State) :
    (writeEncResult r s).E_VLD = 1#1 := rfl

@[simp] theorem writeEncResult_E_SEX (r : EncResult) (s : State) :
    (writeEncResult r s).E_SEX = r.sex := rfl

@[simp] theorem writeEncResult_E_CHR (r : EncResult) (s : State) :
    (writeEncResult r s).E_CHR = r.chr := rfl

@[simp] theorem writeEncResult_D_VLD (r : EncResult) (s : State) :
    (writeEncResult r s).D_VLD = s.D_VLD := rfl

@[simp] theorem writeEncResult_D_OK (r : EncResult) (s : State) :
    (writeEncResult r s).D_OK = s.D_OK := rfl

@[simp] theorem writeEncResult_D_ERR (r : EncResult) (s : State) :
    (writeEncResult r s).D_ERR = s.D_ERR := rfl

@[simp] theorem writeEncResult_D_ID (r : EncResult) (s : State) :
    (writeEncResult r s).D_ID = s.D_ID := rfl

@[simp] theorem writeEncResult_D_SEX (r : EncResult) (s : State) :
    (writeEncResult r s).D_SEX = s.D_SEX := rfl

@[simp] theorem writeEncResult_D_BAD (r : EncResult) (s : State) :
    (writeEncResult r s).D_BAD = s.D_BAD := rfl

@[simp] theorem writeEncResult_STRICT_PADDING (r : EncResult) (s : State) :
    (writeEncResult r s).STRICT_PADDING = s.STRICT_PADDING := rfl

@[simp] theorem writeEncResult_inputs (r : EncResult) (s : State) :
    (writeEncResult r s).inputs = s.inputs := rfl

@[simp] theorem clearEncValid_E_VLD (s : State) :
    (clearEncValid s).E_VLD = 0#1 := rfl

@[simp] theorem clearEncValid_E_SEX (s : State) :
    (clearEncValid s).E_SEX = s.E_SEX := rfl

@[simp] theorem clearEncValid_E_CHR (s : State) :
    (clearEncValid s).E_CHR = s.E_CHR := rfl

@[simp] theorem clearEncValid_D_VLD (s : State) :
    (clearEncValid s).D_VLD = s.D_VLD := rfl

@[simp] theorem clearEncValid_D_OK (s : State) :
    (clearEncValid s).D_OK = s.D_OK := rfl

@[simp] theorem clearEncValid_D_ERR (s : State) :
    (clearEncValid s).D_ERR = s.D_ERR := rfl

@[simp] theorem clearEncValid_D_ID (s : State) :
    (clearEncValid s).D_ID = s.D_ID := rfl

@[simp] theorem clearEncValid_D_SEX (s : State) :
    (clearEncValid s).D_SEX = s.D_SEX := rfl

@[simp] theorem clearEncValid_D_BAD (s : State) :
    (clearEncValid s).D_BAD = s.D_BAD := rfl

@[simp] theorem clearEncValid_STRICT_PADDING (s : State) :
    (clearEncValid s).STRICT_PADDING = s.STRICT_PADDING := rfl

@[simp] theorem clearEncValid_inputs (s : State) :
    (clearEncValid s).inputs = s.inputs := rfl

@[simp] theorem writeDecResult_E_VLD (r : DecResult) (s : State) :
    (writeDecResult r s).E_VLD = s.E_VLD := rfl

@[simp] theorem writeDecResult_E_SEX (r : DecResult) (s : State) :
    (writeDecResult r s).E_SEX = s.E_SEX := rfl

@[simp] theorem writeDecResult_E_CHR (r : DecResult) (s : State) :
    (writeDecResult r s).E_CHR = s.E_CHR := rfl

@[simp] theorem writeDecResult_D_VLD (r : DecResult) (s : State) :
    (writeDecResult r s).D_VLD = 1#1 := rfl

@[simp] theorem writeDecResult_D_OK (r : DecResult) (s : State) :
    (writeDecResult r s).D_OK = r.ok := rfl

@[simp] theorem writeDecResult_D_ERR (r : DecResult) (s : State) :
    (writeDecResult r s).D_ERR = r.err := rfl

@[simp] theorem writeDecResult_D_ID (r : DecResult) (s : State) :
    (writeDecResult r s).D_ID = r.id := rfl

@[simp] theorem writeDecResult_D_SEX (r : DecResult) (s : State) :
    (writeDecResult r s).D_SEX = r.sex := rfl

@[simp] theorem writeDecResult_D_BAD (r : DecResult) (s : State) :
    (writeDecResult r s).D_BAD = r.bad := rfl

@[simp] theorem writeDecResult_STRICT_PADDING (r : DecResult) (s : State) :
    (writeDecResult r s).STRICT_PADDING = s.STRICT_PADDING := rfl

@[simp] theorem writeDecResult_inputs (r : DecResult) (s : State) :
    (writeDecResult r s).inputs = s.inputs := rfl

@[simp] theorem clearDecValid_E_VLD (s : State) :
    (clearDecValid s).E_VLD = s.E_VLD := rfl

@[simp] theorem clearDecValid_E_SEX (s : State) :
    (clearDecValid s).E_SEX = s.E_SEX := rfl

@[simp] theorem clearDecValid_E_CHR (s : State) :
    (clearDecValid s).E_CHR = s.E_CHR := rfl

@[simp] theorem clearDecValid_D_VLD (s : State) :
    (clearDecValid s).D_VLD = 0#1 := rfl

@[simp] theorem clearDecValid_D_OK (s : State) :
    (clearDecValid s).D_OK = s.D_OK := rfl

@[simp] theorem clearDecValid_D_ERR (s : State) :
    (clearDecValid s).D_ERR = s.D_ERR := rfl

@[simp] theorem clearDecValid_D_ID (s : State) :
    (clearDecValid s).D_ID = s.D_ID := rfl

@[simp] theorem clearDecValid_D_SEX (s : State) :
    (clearDecValid s).D_SEX = s.D_SEX := rfl

@[simp] theorem clearDecValid_D_BAD (s : State) :
    (clearDecValid s).D_BAD = s.D_BAD := rfl

@[simp] theorem clearDecValid_STRICT_PADDING (s : State) :
    (clearDecValid s).STRICT_PADDING = s.STRICT_PADDING := rfl

@[simp] theorem clearDecValid_inputs (s : State) :
    (clearDecValid s).inputs = s.inputs := rfl

@[simp] theorem resetRegisters_E_VLD (s : State) :
    (resetRegisters s).E_VLD = 0#1 := rfl

@[simp] theorem resetRegisters_E_SEX (s : State) :
    (resetRegisters s).E_SEX = 0#132 := rfl

@[simp] theorem resetRegisters_E_CHR (s : State) :
    (resetRegisters s).E_CHR = 0#176 := rfl

@[simp] theorem resetRegisters_D_VLD (s : State) :
    (resetRegisters s).D_VLD = 0#1 := rfl

@[simp] theorem resetRegisters_D_OK (s : State) :
    (resetRegisters s).D_OK = 0#1 := rfl

@[simp] theorem resetRegisters_D_ERR (s : State) :
    (resetRegisters s).D_ERR = 0b00#2 := rfl

@[simp] theorem resetRegisters_D_ID (s : State) :
    (resetRegisters s).D_ID = 0#128 := rfl

@[simp] theorem resetRegisters_D_SEX (s : State) :
    (resetRegisters s).D_SEX = 0#132 := rfl

@[simp] theorem resetRegisters_D_BAD (s : State) :
    (resetRegisters s).D_BAD = 0#22 := rfl

@[simp] theorem resetRegisters_STRICT_PADDING (s : State) :
    (resetRegisters s).STRICT_PADDING = s.STRICT_PADDING := rfl

@[simp] theorem resetRegisters_inputs (s : State) :
    (resetRegisters s).inputs = s.inputs := rfl

@[simp] theorem withInputs_E_VLD (lines : List EdgeInput) (s : State) :
    (withInputs lines s).E_VLD = s.E_VLD := rfl

@[simp] theorem withInputs_E_SEX (lines : List EdgeInput) (s : State) :
    (withInputs lines s).E_SEX = s.E_SEX := rfl

@[simp] theorem withInputs_E_CHR (lines : List EdgeInput) (s : State) :
    (withInputs lines s).E_CHR = s.E_CHR := rfl

@[simp] theorem withInputs_D_VLD (lines : List EdgeInput) (s : State) :
    (withInputs lines s).D_VLD = s.D_VLD := rfl

@[simp] theorem withInputs_D_OK (lines : List EdgeInput) (s : State) :
    (withInputs lines s).D_OK = s.D_OK := rfl

@[simp] theorem withInputs_D_ERR (lines : List EdgeInput) (s : State) :
    (withInputs lines s).D_ERR = s.D_ERR := rfl

@[simp] theorem withInputs_D_ID (lines : List EdgeInput) (s : State) :
    (withInputs lines s).D_ID = s.D_ID := rfl

@[simp] theorem withInputs_D_SEX (lines : List EdgeInput) (s : State) :
    (withInputs lines s).D_SEX = s.D_SEX := rfl

@[simp] theorem withInputs_D_BAD (lines : List EdgeInput) (s : State) :
    (withInputs lines s).D_BAD = s.D_BAD := rfl

@[simp] theorem withInputs_STRICT_PADDING (lines : List EdgeInput) (s : State) :
    (withInputs lines s).STRICT_PADDING = s.STRICT_PADDING := rfl

@[simp] theorem withInputs_inputs (lines : List EdgeInput) (s : State) :
    (withInputs lines s).inputs = lines := rfl

end Sys2Proof.Laws
end

