-- ==== Sys2Proof/Laws/Step.lean ====
section
/-! SUPPORT. What a step can do, said once. -/

namespace Sys2Proof.Laws

open Sys2Proof.Machine

/-- A line that is decoded gives RESET alone, or one operation of each channel (30_encoding.md R70). -/
theorem decodeCtl_shape {ctl : Ctl} {v : EdgeInput} {ops : List Instr} (h : decodeCtl ctl v = .ok ops) :
    ops = [.reset] ∨ ∃ e d, ops = [e, d] ∧ decodeEncOp ctl v = .ok e ∧ decodeDecOp ctl v = .ok d := by
  unfold decodeCtl at h
  split at h
  · exact .inl (Except.ok.inj h).symm
  · split at h
    · rename_i e d he hd
      exact .inr ⟨e, d, (Except.ok.inj h).symm, he, hd⟩
    · cases h
    · cases h

/-- The encoder's operation at an edge is ENC of the sampled identifier, or ENC_IDLE. -/
theorem decodeEncOp_cases {ctl : Ctl} {v : EdgeInput} {i : Instr} (h : decodeEncOp ctl v = .ok i) :
    (rowEnc.hits ctl = true ∧ ∃ id, v.enc_id = some id ∧ i = .enc id) ∨ (rowEnc.hits ctl = false ∧ i = .encIdle) := by
  unfold decodeEncOp at h
  by_cases hrow : rowEnc.hits ctl = true
  · rw [if_pos hrow] at h
    cases hid : v.enc_id with
    | none => rw [hid] at h; cases h
    | some id => rw [hid] at h; exact .inl ⟨hrow, id, rfl, (Except.ok.inj h).symm⟩
  · rw [if_neg hrow] at h
    exact .inr ⟨by simpa using hrow, (Except.ok.inj h).symm⟩

/-- The decoder's operation at an edge is DEC of the sampled length and token, or DEC_IDLE. Where the token port is
undefined the length is not 22, and the operand stands for it. -/
theorem decodeDecOp_cases {ctl : Ctl} {v : EdgeInput} {i : Instr} (h : decodeDecOp ctl v = .ok i) :
    (rowDec.hits ctl = true ∧ ∃ len tok, v.dec_len = some len ∧
      (v.dec_tok = some tok ∨ v.dec_tok = none ∧ len ≠ 22#8 ∧ tok = 0#176) ∧ i = .dec len tok) ∨
    (rowDec.hits ctl = false ∧ i = .decIdle) := by
  unfold decodeDecOp at h
  by_cases hrow : rowDec.hits ctl = true
  · rw [if_pos hrow] at h
    cases hlen : v.dec_len with
    | none => rw [hlen] at h; cases h
    | some len =>
      cases htok : v.dec_tok with
      | some tok => rw [hlen, htok] at h; exact .inl ⟨hrow, len, tok, rfl, .inl rfl, (Except.ok.inj h).symm⟩
      | none =>
        rw [hlen, htok] at h
        by_cases h22 : len = 22#8
        · simp [h22] at h
        · simp only [h22, if_false] at h
          exact .inl ⟨hrow, len, 0#176, rfl, .inr ⟨rfl, h22, rfl⟩, (Except.ok.inj h).symm⟩
  · rw [if_neg hrow] at h
    exact .inr ⟨by simpa using hrow, (Except.ok.inj h).symm⟩

/-- A decoded line has its three request bits defined, and its control word was decoded. -/
theorem decodeEdge_ctl {v : EdgeInput} {ops : List Instr} (h : decodeEdge v = .ok ops) :
    ∃ r d e, v.rst = some r ∧ v.dec_req = some d ∧ v.enc_req = some e ∧ decodeCtl (ctlWord r d e) v = .ok ops := by
  unfold decodeEdge at h
  split at h
  · cases h
  · cases h
  · cases h
  · rename_i r d e hr hd he
    exact ⟨r, d, e, hr, hd, he, h⟩

/-- A line that is accepted was decoded to the same operations and breaks no host duty. -/
theorem sampleEdge_ok {v : EdgeInput} {ops : List Instr} (h : sampleEdge v = .ok ops) :
    decodeEdge v = .ok ops ∧ hostDutyBroken v = none := by
  unfold sampleEdge at h
  split at h
  · cases h
  · rename_i hops
    split at h
    · cases h
    · rename_i hduty
      exact ⟨hops.trans h, hduty⟩

/-- A step that answers a next state took an accepted line and ran its operations. -/
theorem step_cases {s t : State} (h : step s = .next t) :
    ∃ v rest ops, s.inputs = v :: rest ∧ sampleEdge v = .ok ops ∧ runOps ops (withInputs rest s) = .next t := by
  unfold step at h
  split at h
  · cases h
  · rename_i v rest hin
    split at h
    · cases h
    · rename_i ops hops
      exact ⟨v, rest, ops, hin, hops, h⟩

/-- What the five operations answer. -/
theorem exec_cases (i : Instr) (s : State) :
    (∃ id, i = .enc id ∧ exec i s = .next (writeEncResult (encodeId id) s)) ∨
    (i = .encIdle ∧ exec i s = .next (clearEncValid s)) ∨
    (∃ len tok, i = .dec len tok ∧
      exec i s = .next (writeDecResult (decodeToken s.STRICT_PADDING len tok) s)) ∨
    (i = .decIdle ∧ exec i s = .next (clearDecValid s)) ∨
    (i = .reset ∧ exec i s = .next (resetRegisters s)) := by
  cases i with
  | enc id => exact .inl ⟨id, rfl, rfl⟩
  | encIdle => exact .inr (.inl ⟨rfl, rfl⟩)
  | dec len tok => exact .inr (.inr (.inl ⟨len, tok, rfl, rfl⟩))
  | decIdle => exact .inr (.inr (.inr (.inl ⟨rfl, rfl⟩)))
  | reset => exact .inr (.inr (.inr (.inr ⟨rfl, rfl⟩)))

/-- The operations of an edge always complete, and they leave the host's lines and the parameter alone. -/
theorem runOps_next (ops : List Instr) (s : State) :
    ∃ t, runOps ops s = .next t ∧ t.inputs = s.inputs ∧ t.STRICT_PADDING = s.STRICT_PADDING := by
  induction ops generalizing s with
  | nil => exact ⟨s, rfl, rfl, rfl⟩
  | cons i rest ih =>
    rcases exec_cases i s with ⟨_, rfl, h⟩ | ⟨rfl, h⟩ | ⟨_, _, rfl, h⟩ | ⟨rfl, h⟩ | ⟨rfl, h⟩ <;>
      simp only [runOps, h] <;> exact ih _

/-- An accepted line is an edge that completes. -/
theorem step_of_accepted {s : State} {v : EdgeInput} {rest : List EdgeInput} (hin : s.inputs = v :: rest)
    (h : lineAccepted v = true) :
    ∃ t, step s = .next t ∧ runOps (lineOps v) (withInputs rest s) = .next t ∧ t.inputs = rest ∧
      t.STRICT_PADDING = s.STRICT_PADDING := by
  unfold lineAccepted at h
  unfold step lineOps
  rw [hin]
  dsimp only
  cases hs : sampleEdge v with
  | error r => rw [hs] at h; cases h
  | ok ops =>
    obtain ⟨t, hrun, hlines, hparam⟩ := runOps_next ops (withInputs rest s)
    exact ⟨t, hrun, hrun, hlines, hparam⟩

/-- What the operations of one edge leave, by the registers of each channel: RESET, or one of the encoder's two
effects and one of the decoder's two. -/
theorem edge_cases {s t : State} (h : step s = .next t) :
    ∃ v rest, s.inputs = v :: rest ∧
      ((v.rst = some 1#1 ∧ t = resetRegisters (withInputs rest s)) ∨
       (v.rst = some 0#1 ∧ ∃ te,
        ((∃ id, v.enc_req = some 1#1 ∧ v.enc_id = some id ∧ te = writeEncResult (encodeId id) (withInputs rest s)) ∨
         (v.enc_req = some 0#1 ∧ te = clearEncValid (withInputs rest s))) ∧
        ((∃ len tok, v.dec_req = some 1#1 ∧ v.dec_len = some len ∧
            (v.dec_tok = some tok ∨ v.dec_tok = none ∧ len ≠ 22#8 ∧ tok = 0#176) ∧
            t = writeDecResult (decodeToken s.STRICT_PADDING len tok) te) ∨
         (v.dec_req = some 0#1 ∧ t = clearDecValid te)))) := by
  obtain ⟨v, rest, ops, hin, hops, hrun⟩ := step_cases h
  obtain ⟨r, d, e, hr, hd, he, hctl⟩ := decodeEdge_ctl (sampleEdge_ok hops).1
  refine ⟨v, rest, hin, ?_⟩
  have hreset : ∀ r d e : Bit, rowReset.hits (ctlWord r d e) = true ↔ r = 1#1 := by decide
  have henc : ∀ r d e : Bit, r ≠ 1#1 → (rowEnc.hits (ctlWord r d e) = true ↔ e = 1#1) := by decide
  have hdec : ∀ r d e : Bit, r ≠ 1#1 → (rowDec.hits (ctlWord r d e) = true ↔ d = 1#1) := by decide
  have bit : ∀ b : Bit, b ≠ 1#1 → b = 0#1 := by decide
  by_cases h1 : r = 1#1
  · have : ops = [.reset] := by
      unfold decodeCtl at hctl
      rw [if_pos ((hreset r d e).mpr h1)] at hctl
      exact (Except.ok.inj hctl).symm
    subst this
    exact .inl ⟨by rw [hr, h1], (Host.Outcome.next.inj hrun).symm⟩
  · right
    refine ⟨by rw [hr, bit r h1], ?_⟩
    rcases decodeCtl_shape hctl with rfl | ⟨i, j, rfl, hi, hj⟩
    · unfold decodeCtl at hctl
      rw [if_neg (mt (hreset r d e).mp h1)] at hctl
      split at hctl
      · exact absurd (Except.ok.inj hctl) (by simp)
      · cases hctl
      · cases hctl
    · rcases decodeEncOp_cases hi with ⟨hrow, id, hid, rfl⟩ | ⟨hrow, rfl⟩
      · refine ⟨writeEncResult (encodeId id) (withInputs rest s),
          .inl ⟨id, by rw [he, (henc r d e h1).mp hrow], hid, rfl⟩, ?_⟩
        rcases decodeDecOp_cases hj with ⟨hrow', len, tok, hlen, htok, rfl⟩ | ⟨hrow', rfl⟩
        · exact .inl ⟨len, tok, by rw [hd, (hdec r d e h1).mp hrow'], hlen, htok,
            (Host.Outcome.next.inj hrun).symm⟩
        · have hd0 : d = 0#1 := bit d (fun hd1 => by rw [(hdec r d e h1).mpr hd1] at hrow'; cases hrow')
          exact .inr ⟨by rw [hd, hd0], (Host.Outcome.next.inj hrun).symm⟩
      · have he0 : e = 0#1 := bit e (fun he1 => by rw [(henc r d e h1).mpr he1] at hrow; cases hrow)
        refine ⟨clearEncValid (withInputs rest s), .inr ⟨by rw [he, he0], rfl⟩, ?_⟩
        rcases decodeDecOp_cases hj with ⟨hrow', len, tok, hlen, htok, rfl⟩ | ⟨hrow', rfl⟩
        · exact .inl ⟨len, tok, by rw [hd, (hdec r d e h1).mp hrow'], hlen, htok,
            (Host.Outcome.next.inj hrun).symm⟩
        · have hd0 : d = 0#1 := bit d (fun hd1 => by rw [(hdec r d e h1).mpr hd1] at hrow'; cases hrow')
          exact .inr ⟨by rw [hd, hd0], (Host.Outcome.next.inj hrun).symm⟩

end Sys2Proof.Laws
end

