-- ==== Sys2Proof/Tests/Slice0.lean ====
section
/-! SUPPORT. Tests whose expected values come from the spec (95_test_vectors.md and the rules' own examples), and the
witnesses that the statements' hypotheses can be met. -/

namespace Sys2Proof.Tests

open Sys2Proof.Machine

set_option maxRecDepth 4000

/-! ## Helpers -/

/-- A state with these lines to come, every register at its reset value. -/
def before (strict : Bool) (lines : List EdgeInput) : State := runStart strict lines

/-- A state whose registers are all nonzero. -/
def busy : State :=
  { E_VLD := 1#1, E_SEX := 5#132, E_CHR := 6#176, D_VLD := 1#1, D_OK := 1#1, D_ERR := 3#2, D_ID := 7#128,
    D_SEX := 8#132, D_BAD := 9#22, STRICT_PADDING := true, inputs := [] }

/-- "IdE4LgfmQU_B17r5K4R_kw" (V1). -/
def tokenV1 : CharBus := 0x496445344c67666d51555f42313772354b34525f6b77#176

/-- The identifier of V1. -/
def idV1 : Identifier := 0x21d1382e07e6414f81d7baf92b847e93#128

/-- 22 x `A` (E1). -/
def tokenA : CharBus := 0x41414141414141414141414141414141414141414141#176

/-- 21 x `A`, then `B`: nonzero padding (X11). -/
def tokenAB : CharBus := 0x41414141414141414141414141414141414141414142#176

/-- 21 x `A`, then `+`: an invalid last lane (X10). -/
def tokenAPlus : CharBus := 0x4141414141414141414141414141414141414141412b#176

/-- The next state of an outcome that has one. -/
def nextOf (o : Host.Outcome State Fault Refusal) : Option State :=
  match o with
  | .next t => some t
  | .fault _ => none
  | .refused _ => none

/-- The refusal of an outcome that has one. -/
def refusalOf (o : Host.Outcome State Fault Refusal) : Option Refusal :=
  match o with
  | .next _ => none
  | .fault _ => none
  | .refused r => some r

/-! ## Well-formedness: one ill-formed list for each way an edge's operations can be wrong -/

theorem test_wf_refuses_no_operation : edgeOpsWf [] = false := by decide
theorem test_wf_refuses_one_channel_alone : edgeOpsWf [.encIdle] = false := by decide
theorem test_wf_refuses_a_decoder_row_first : edgeOpsWf [.decIdle, .decIdle] = false := by decide
theorem test_wf_refuses_an_encoder_row_second : edgeOpsWf [.enc 1#128, .encIdle] = false := by decide
theorem test_wf_refuses_reset_with_a_request : edgeOpsWf [.reset, .dec 22#8 0#176] = false := by decide
theorem test_wf_refuses_three : edgeOpsWf [.encIdle, .decIdle, .reset] = false := by decide

/-! ## Decoding: lines written out from 30_encoding.md R74 and the programs P1, P2, P4 -/

/-- ctl = 0b001 (P1, edge 1). -/
theorem test_decode_enc :
    decodeEdge ⟨some 0b0#1, some 0b0#1, some 0b1#1, some idV1, none, none, none⟩ = .ok [.enc idV1, .decIdle] := by rfl

/-- ctl = 0b010 (P1, edge 2). -/
theorem test_decode_dec :
    decodeEdge ⟨some 0b0#1, some 0b1#1, some 0b0#1, none, some 22#8, some tokenV1, none⟩ =
      .ok [.encIdle, .dec 22#8 tokenV1] := by rfl

/-- ctl = 0b101, the request is ignored (P4, edge 2). -/
theorem test_decode_reset_with_a_request :
    decodeEdge ⟨some 0b1#1, some 0b0#1, some 0b1#1, some 2#128, none, none, none⟩ = .ok [.reset] := by rfl

/-- ctl = 0b000 (P1, edge 3). -/
theorem test_decode_idle : decodeEdge idleLine = .ok [.encIdle, .decIdle] := by rfl

/-- The opcode table's rows, by their match word. The word 0b000 is row ENC_IDLE and row DEC_IDLE at once, and one
answer stands for both (assumption log 10). -/
theorem test_table_words :
    decodeTableWord 8 0b001 = some (.enc 0#128) ∧ decodeTableWord 8 0b000 = some .encIdle ∧
    decodeTableWord 8 0b010 = some (.dec 0#8 0#176) ∧ decodeTableWord 8 0b100 = some .reset ∧
    decodeTableWord 8 0b1000 = none := by decide

/-- DEC_IDLE runs at the edge of the control word 0b000. -/
theorem test_idle_word_runs_both_rows :
    nextOf (step (busy.withFetchWord 8 0b000)) = some { busy with E_VLD := 0#1, D_VLD := 0#1 } := by decide

/-! ## Operations -/

/-- V1. -/
theorem test_enc_v1 :
    (nextOf (exec (.enc idV1) busy)).map (fun t => (t.E_VLD, t.E_SEX, t.E_CHR, t.D_ID)) =
      some (1#1, 0x21d1382e07e6414f81d7baf92b847e930#132, tokenV1, 7#128) := by decide

/-- E2 and E14. -/
theorem test_encode_vectors :
    (encodeId 0xffffffffffffffffffffffffffffffff#128).chr = 0x2d2d2d2d2d2d2d2d2d2d2d2d2d2d2d2d2d2d2d2d2d77#176 ∧
    (encodeId 0x000102030405060708090a0b0c0d0e0f#128).chr = 0x41414543417751464267634943516f4c4441304f4477#176 := by
  decide

/-- R101. -/
theorem test_enc_idle : nextOf (exec .encIdle busy) = some { busy with E_VLD := 0#1 } := by decide

/-- V2. -/
theorem test_dec_v2 :
    (nextOf (exec (.dec 22#8 tokenV1) (before true []))).map (fun t => (t.D_VLD, t.D_OK, t.D_ERR, t.D_ID, t.D_BAD)) =
      some (1#1, 1#1, 0b00#2, idV1, 0#22) := by decide

/-- V6: `+` in lane 10, after a success: nothing of the earlier verdict is left. -/
theorem test_dec_v6 :
    (nextOf (exec (.dec 22#8 0x496445344c67666d51552b42313772354b34525f6b77#176) busy)).map
      (fun t => (t.D_VLD, t.D_OK, t.D_ERR, t.D_ID, t.D_SEX, t.D_BAD)) =
      some (1#1, 0#1, 0b10#2, 0#128, 0#132, 0x000800#22) := by decide

/-- V5, X6 (length before symbols), X9, X10 (symbol before padding), X11 and X12 (both values of the parameter),
X14. -/
theorem test_decode_vectors :
    (decodeToken true 20#8 0x496445344c67666d51555f42313772354b34525f0000#176).err = 0b01#2 ∧
    decodeToken true 21#8 0x2b2f3d2b2f3d2b2f3d2b2f3d2b2f3d2b2f3d2b2f3d00#176 = ⟨0#1, 0b01#2, 0#128, 0#132, 0#22⟩ ∧
    (decodeToken true 22#8 0x41414141414141414141414141414141414141413d3d#176).bad = 0x000003#22 ∧
    decodeToken true 22#8 tokenAPlus = ⟨0#1, 0b10#2, 0#128, 0#132, 0x000001#22⟩ ∧
    decodeToken true 22#8 tokenAB = ⟨0#1, 0b11#2, 0#128, 0#132, 0#22⟩ ∧
    decodeToken false 22#8 tokenAB = ⟨1#1, 0b00#2, 0#128, 1#132, 0#22⟩ ∧
    (decodeToken false 22#8 0x4141414141414141414141414141414141414141412d#176).id = 3#128 := by decide

/-- R121. -/
theorem test_dec_idle : nextOf (exec .decIdle busy) = some { busy with D_VLD := 0#1 } := by decide

/-- R160. -/
theorem test_reset : nextOf (exec .reset busy) = some State.reset := by decide

/-- P2, edge 1: both channels at one edge; the DEC takes `enc_chr` as it stood before the edge. -/
theorem test_step_both_channels :
    (nextOf (step (before true [encDecLine idV1 22#8 State.reset.outputs.enc_chr]))).map
      (fun t => (t.E_CHR, t.E_VLD, t.D_VLD, t.D_ERR, t.D_BAD)) =
      some (tokenV1, 1#1, 1#1, 0b10#2, 0x3fffff#22) := by decide

/-! ## Tables and the host's side -/

/-- L1 to L8 and corner cases of R94. -/
theorem test_table_vectors :
    elutRead 0#6 = 0x41#8 ∧ elutRead 25#6 = 0x5A#8 ∧ elutRead 26#6 = 0x61#8 ∧ elutRead 51#6 = 0x7A#8 ∧
    elutRead 52#6 = 0x30#8 ∧ elutRead 61#6 = 0x39#8 ∧ elutRead 62#6 = 0x5F#8 ∧ elutRead 63#6 = 0x2D#8 ∧
    dlutRead 0x7A#8 = ⟨1#1, 51#6⟩ ∧ dlutRead 0x2D#8 = ⟨1#1, 63#6⟩ ∧ (dlutRead 0x40#8).valid = 0#1 ∧
    (dlutRead 0x7B#8).valid = 0#1 ∧ (dlutRead 0xFF#8).valid = 0#1 ∧
    (dlutRead 0x5F#8).bits = 0b1111110#7 := by decide

/-- V3: the identifier of the second GUID. -/
theorem test_guid_v3 :
    guidIdentifier ⟨0x83050558#32, 0x771a#16, 0x4ae3#16, 0xa516#16, 0x85a73e0c0b98#48⟩ =
      0x580505831a77e34aa51685a73e0c0b98#128 := by decide

/-- R164's and R165's examples: 278 characters, and U+0141. -/
theorem test_presented : saturatedLength 278 = 255#8 ∧ presentedCode 0x141 = 0xFF#8 := by decide

/-- R165's example: a host that truncates U+0141 to `A` is refused (I12). -/
theorem test_truncated_character_is_refused :
    refusalOf (step (before true [{ decLine 22#8 tokenA with text := some (0x141 :: List.replicate 21 0x41) }])) =
      some (.inputRejected .wideCharacterAccepted) := by decide

/-- The sizes of 00_scope.md R7: 132 = 22 x 6 = 128 + 4. -/
theorem test_sizes : Config.tokenLength.toNat * 6 = 132 ∧ 128 + 4 = 132 ∧ elutRom.length = 64 := by decide

/-! ## Witnesses: the hypotheses of each statement that has some can be met -/

theorem witness_OneResetEdgeEndsPowerUp :
    rstLine.rst = some 1#1 ∧ rstLine.dec_req = some 0#1 ∧ rstLine.enc_req = some 0#1 := by decide

theorem witness_StepKeepsTheParameter : ∃ t, step (before false [encLine idV1]) = .next t := ⟨_, rfl⟩

theorem witness_ChannelsCannotObserveEachOther :
    ∃ (s s' t t' : State) (v v' : EdgeInput), s.inputs = [v] ∧ s'.inputs = [v'] ∧ step s = .next t ∧
      step s' = .next t' ∧ v.rst = v'.rst ∧
      (s.E_VLD = s'.E_VLD ∧ s.E_SEX = s'.E_SEX ∧ s.E_CHR = s'.E_CHR ∧ v.enc_req = v'.enc_req ∧ v.enc_id = v'.enc_id) ∧
      (s.D_VLD = s'.D_VLD ∧ s.D_OK = s'.D_OK ∧ s.D_ERR = s'.D_ERR ∧ s.D_ID = s'.D_ID ∧ s.D_SEX = s'.D_SEX ∧
        s.D_BAD = s'.D_BAD ∧ s.STRICT_PADDING = s'.STRICT_PADDING ∧ v.dec_req = v'.dec_req ∧
        v.dec_len = v'.dec_len ∧ v.dec_tok = v'.dec_tok) :=
  ⟨before true [encDecLine idV1 22#8 tokenAB], before true [encDecLine idV1 22#8 tokenAB], _, _, _, _, rfl, rfl, rfl,
    rfl, rfl, ⟨rfl, rfl, rfl, rfl, rfl⟩, rfl, rfl, rfl, rfl, rfl, rfl, rfl, rfl, rfl, rfl⟩

/-- A state that meets the invariant and is not the reset state: after ENC of V1 and a DEC of a short token. -/
def afterBoth : State :=
  { E_VLD := 1#1, E_SEX := (encodeId idV1).sex, E_CHR := (encodeId idV1).chr, D_VLD := 1#1, D_OK := 0#1,
    D_ERR := 0b01#2, D_ID := 0#128, D_SEX := 0#132, D_BAD := 0#22, STRICT_PADDING := true, inputs := [idleLine] }

theorem witness_EveryEdgeKeepsTheInvariant : Inv afterBoth ∧ ∃ t, step afterBoth = .next t := by
  refine ⟨?_, _, rfl⟩
  exact
    { encoder := .inr ⟨idV1, rfl, rfl⟩
      lanes := .inr (by decide)
      padding := by decide
      decoder := .inr ⟨0#8, 0#176, by decide⟩
      verdict := by decide
      success := by decide
      failure := by decide
      badLanes := by decide
      identifier := by decide
      strictPadding := by decide
      paddingCode := by decide }

theorem witness_RegistersShowTheMostRecentRequest :
    (∀ v ∈ [encLine idV1, decLine 22#8 tokenAB, idleLine], lineAccepted v = true) ∧
    ∃ t, Host.Core.run core 3 (runStart true [encLine idV1, decLine 22#8 tokenAB, idleLine]) = .next t :=
  ⟨by decide, _, rfl⟩

/-- From a state with a request on each channel behind it, and from one with none. -/
theorem witness_EveryEdgeKeepsShowingTheMostRecentRequest :
    afterBoth.inputs = [idleLine] ∧ lineAccepted idleLine = true ∧ EncoderShows (some idV1) afterBoth ∧
    DecoderShows (some (0#8, 0#176)) afterBoth ∧ EncoderShows none State.reset ∧ DecoderShows none State.reset ∧
    lineAccepted (encDecLine idV1 22#8 tokenV1) = true ∧ lineAccepted rstLine = true :=
  ⟨rfl, by decide, ⟨rfl, rfl⟩, ⟨by decide, by decide, by decide, by decide, by decide⟩, ⟨rfl, rfl⟩,
    ⟨rfl, rfl, rfl, rfl, rfl⟩, by decide, by decide⟩

theorem witness_OperationsOfOneEdgeAreIndependent :
    (Instr.enc idV1).isEncOp = true ∧ (Instr.dec 22#8 tokenV1).isDecOp = true := by decide

theorem witness_EveryControlWordSelectsOneRowPerChannel :
    rowReset.hits 0b101#3 = true ∧ rowReset.hits 0b011#3 = false := by decide

theorem witness_DecodingUndoesEncoding :
    edgeOpsWf [.enc idV1, .dec 255#8 tokenAB] = true ∧ edgeOpsWf [.reset] = true ∧
    decodeEdge (lineOfWord 0b011) = .ok [.enc 0#128, .dec 0#8 0#176] := ⟨by decide, by decide, rfl⟩

theorem witness_StepRunsTheDecodedOperations :
    (decodeEdge rstLine = .ok [.reset] ∧ hostDutyBroken rstLine = none) ∧
    decodeEdge (encDecLine idV1 22#8 tokenV1) = .ok [.enc idV1, .dec 22#8 tokenV1] ∧
    hostDutyBroken (encDecLine idV1 22#8 tokenV1) = none ∧ ∃ t, exec (.enc idV1) busy = .next t :=
  ⟨⟨rfl, rfl⟩, rfl, rfl, _, rfl⟩

theorem witness_EdgeDispatchesOnRequests :
    (before true [lineOfWord 0b011]).inputs =
      [⟨some 0#1, some 1#1, some 1#1, some 0#128, some 0#8, some 0#176, none⟩] := by decide

theorem witness_UnsampledPortsHaveNoEffect :
    rstLine.rst = some 1#1 ∧ idleLine.enc_req = some 0#1 ∧ idleLine.dec_req = some 0#1 ∧
    (decLine 21#8 tokenV1).dec_len = some 21#8 ∧ (21#8 : TokenLength) ≠ 22#8 := by decide

theorem witness_UndefinedSampledInputIsRefused :
    ({ idleLine with rst := none } : EdgeInput).rst = none ∧
    ({ idleLine with dec_req := none } : EdgeInput).dec_req = none ∧
    ({ idleLine with enc_req := none } : EdgeInput).enc_req = none ∧
    (lineOfWord 0b001).rst = some 0#1 ∧ (lineOfWord 0b001).enc_req = some 1#1 ∧
    ({ lineOfWord 0b001 with enc_id := none } : EdgeInput).enc_id = none ∧
    (lineOfWord 0b010).dec_req = some 1#1 ∧ ({ lineOfWord 0b010 with dec_len := none } : EdgeInput).dec_len = none ∧
    (decLine 22#8 tokenV1).dec_len = some 22#8 ∧
    ({ decLine 22#8 tokenV1 with dec_tok := none } : EdgeInput).dec_tok = none ∧
    ({ rstLine with dec_req := none } : EdgeInput).rst = some 1#1 ∧
    ({ rstLine with dec_req := none } : EdgeInput).dec_req = none ∧
    ({ rstLine with enc_req := none } : EdgeInput).rst = some 1#1 ∧
    ({ rstLine with enc_req := none } : EdgeInput).enc_req = none := by decide

theorem witness_DlutHoldsIndexOrSentinel : ∀ v : Sextet, elutRead v ≠ 0x5B#8 := by decide

theorem witness_TablesAreInverse : (dlutRead 0x2D#8).valid = 1#1 ∧ elutRead 63#6 = elutRead 63#6 := by decide

theorem witness_EncodeStaysInTheAlphabetAndIsInjective : (encodeId 0#128).chr = (encodeId 0#128).chr := rfl

/-- Two different identifiers with the same lane 20. -/
theorem witness_EncodeLanesAreIndependent :
    (1#128 : Identifier) ≠ 2#128 ∧
    (1#128 ++ 0#4 : SextetBus).extractLsb' 6 6 = (2#128 ++ 0#4 : SextetBus).extractLsb' 6 6 := by decide

theorem witness_EncoderOperationsFrame :
    Instr.encIdle.isEncOp = true ∧ ∃ t, exec .encIdle busy = .next t := ⟨rfl, _, rfl⟩

theorem witness_DecodeFollowsItsFourCases :
    (21#8 : TokenLength) ≠ 22#8 ∧ (23#8 : TokenLength) ≠ 22#8 ∧ (∃ k, (dlutRead (symbolLane tokenAPlus k)).valid = 0#1) ∧
    ((∀ k, (dlutRead (symbolLane tokenAB k)).valid = 1#1) ∧ (lookedUpSextets tokenAB).extractLsb' 0 4 ≠ 0b0000#4) ∧
    (∀ k, (dlutRead (symbolLane tokenA k)).valid = 1#1) ∧ (lookedUpSextets tokenA).extractLsb' 0 4 = 0b0000#4 := by
  decide

theorem witness_EveryInvalidLaneIsMarked :
    symbolLane tokenAB 20 = symbolLane tokenAPlus 20 ∧
    (∀ k, (dlutRead (symbolLane tokenAPlus k)).valid = (dlutRead (symbolLane (tokenAPlus ^^^ 0x14#176) k)).valid) ∧
    ∃ k, (dlutRead (symbolLane tokenAPlus k)).valid = 0#1 := by decide

/-- Strict, and lenient with nonzero padding. -/
theorem witness_DecodeAgreesWithTheWindowForm :
    (decodeToken true 22#8 tokenV1).ok = 1#1 ∧ (decodeToken false 22#8 tokenAB).ok = 1#1 := by decide

theorem witness_StrictDecodeAcceptsExactlyTheEncodings :
    tokenV1 = (encodeId idV1).chr ∧ (decodeToken true 22#8 tokenV1).ok = 1#1 := by decide

theorem witness_LenientDecodeIgnoresThePadding : (decodeToken false 22#8 tokenAB).ok = 1#1 := by decide

theorem witness_DecWritesTheVerdict : (decodeToken busy.STRICT_PADDING 22#8 tokenAB).err ≠ 0b00#2 := by decide

theorem witness_DecoderOperationsFrame :
    (Instr.dec 22#8 tokenV1).isDecOp = true ∧ Instr.decIdle.isDecOp = true ∧
    (∃ t, exec (.dec 22#8 tokenV1) busy = .next t) ∧ ∃ t, exec .decIdle busy = .next t :=
  ⟨rfl, rfl, ⟨_, rfl⟩, _, rfl⟩

/-- A DEC for each row of the table, and an operation that keeps the verdict. -/
theorem witness_ErrorCodeTableHolds :
    (∃ t, exec (.dec 22#8 tokenA) busy = .next t ∧ t.D_ERR = 0b00#2) ∧
    (∃ t, exec (.dec 23#8 tokenA) busy = .next t ∧ t.D_ERR = 0b01#2) ∧
    (∃ t, exec (.dec 22#8 tokenAPlus) busy = .next t ∧ t.D_ERR = 0b10#2) ∧
    (∃ t, exec (.dec 22#8 tokenAB) busy = .next t ∧ t.D_ERR = 0b11#2) ∧
    ∃ t, exec .decIdle busy = .next t ∧ (∀ len tok, Instr.decIdle ≠ .dec len tok) ∧ Instr.decIdle ≠ .reset :=
  ⟨⟨_, rfl, by decide⟩, ⟨_, rfl, by decide⟩, ⟨_, rfl, by decide⟩, ⟨_, rfl, by decide⟩, _, rfl, nofun, nofun⟩

theorem witness_WrongLengthIsInvalidLength :
    (255#8 : TokenLength) ≠ 22#8 ∧ (0#8 : TokenLength) ≠ 22#8 := by decide

theorem witness_InvalidLaneIsInvalidSymbol : (decodeToken true 22#8 tokenAPlus).err = 0b10#2 := by decide

theorem witness_NonzeroPaddingIsInvalidPadding : (decodeToken true 22#8 tokenAB).err = 0b11#2 := by decide

theorem witness_ErrorsAreNotSticky : busy.STRICT_PADDING = State.reset.STRICT_PADDING ∧ busy ≠ State.reset := by decide

theorem witness_ResetEdgeDropsRequests :
    (lineOfWord 0b111).rst = some 1#1 ∧ (lineOfWord 0b111).dec_req = some 1#1 ∧
    (lineOfWord 0b111).enc_req = some 1#1 := by decide

theorem witness_FeedbackDecodesTheEarlierEdge :
    (before true [encLine idV1, decLine 22#8 (encodeId idV1).chr]).inputs =
      [encLine idV1, decLine 22#8 (encodeId idV1).chr] ∧
    ({ busy with inputs := [encDecLine idV1 22#8 busy.outputs.enc_chr] } : State).inputs =
      [encDecLine idV1 22#8 ({ busy with inputs := [] } : State).outputs.enc_chr] := ⟨rfl, rfl⟩

theorem witness_ResultsHoldUntilTheNextRequest :
    (∃ t, step { busy with inputs := [idleLine] } = .next t) ∧ idleLine.rst = some 0#1 ∧
    idleLine.enc_req = some 0#1 ∧ idleLine.dec_req = some 0#1 := ⟨⟨_, rfl⟩, rfl, rfl, rfl⟩

theorem witness_ValidFlagsArePulses : ∃ t, step { busy with inputs := [encLine idV1] } = .next t := ⟨_, rfl⟩

theorem witness_PresentedLengthIsSaturated : (254 : Nat) < 255 ∧ (255 : Nat) ≤ 255 ∧ (278 : Nat) ≠ 22 := by decide

theorem witness_WideCharactersArePresentedAsSentinels : (0xFF : Nat) ≤ 0xFF ∧ (0xFF : Nat) < 0x100 := by decide

/-- A string for each verdict: wide characters, one character, 22 x `A`, and 21 x `A` with `B` last. -/
theorem witness_PresentedStringsGetTheirOwnVerdict :
    (before true [decsLine (List.replicate 22 0x141)]).inputs = [decsLine (List.replicate 22 0x141)] ∧
    (before true [decsLine [0x41]]).inputs = [decsLine [0x41]] ∧
    (List.replicate 22 0x141)[21]? = some 0x141 ∧
    List.replicate 22 0x41 = List.ofFn (fun k : SymbolLane => (elutRead ((fun _ => 0#6) k)).toNat) ∧
    (0#6).extractLsb' 0 4 = 0b0000#4 ∧
    List.replicate 21 0x41 ++ [0x42] =
      List.ofFn (fun k : SymbolLane => (elutRead (if k = 21 then 1#6 else 0#6)).toNat) ∧
    (1#6).extractLsb' 0 4 ≠ 0b0000#4 ∧ (before false []).STRICT_PADDING = false :=
  ⟨rfl, rfl, by decide⟩

/-- A line for each clause of the statement: 21 characters presented as 22, and a wide character accepted. -/
theorem witness_BrokenHostDutyIsRefused :
    (∃ ops, decodeEdge { decLine 22#8 tokenA with text := some (List.replicate 21 0x41) } = .ok ops) ∧
    (decLine 22#8 tokenA).rst = some 0#1 ∧ (decLine 22#8 tokenA).dec_req = some 1#1 ∧
    (decLine 22#8 tokenA).dec_len = some 22#8 ∧ (decLine 22#8 tokenA).dec_tok = some tokenA ∧
    (List.replicate 21 0x41).length ≠ 22 ∧ (List.replicate 22 0x141).length = 22 ∧
    (List.replicate 22 0x141)[21]? = some 0x141 ∧ 0xFF < 0x141 ∧ (dlutRead (symbolLane tokenA 21)).valid = 1#1 :=
  ⟨⟨_, rfl⟩, by decide⟩

theorem witness_RunOfAcceptedLinesCompletes :
    ∀ v ∈ [rstLine, encDecLine idV1 255#8 tokenAPlus, idleLine], lineAccepted v = true := by decide

theorem witness_RunEndsAfterItsLastLine : busy.inputs = [] := rfl

end Sys2Proof.Tests
end

/-! # The state family (10_state.md): lemmas and the statements they settle -/

namespace Sys2Proof.Proofs

open Sys2Proof.Machine Sys2Proof.Laws

/-! ## Steps and runs by their operations -/

/-- The operations of a line that is sampled. -/
theorem lineOps_of_sampleEdge {v : EdgeInput} {ops : List Instr} (h : sampleEdge v = .ok ops) : lineOps v = ops := by
  simp only [lineOps, h]

/-- A step that answers a next state ran the operations of its line in the state without that line. -/
theorem step_runs_lineOps {s t : State} {v : EdgeInput} {rest : List EdgeInput} (hin : s.inputs = v :: rest)
    (hstep : step s = .next t) : runOps (lineOps v) (withInputs rest s) = .next t := by
  obtain ⟨v', rest', ops, hin', hops, hrun⟩ := step_cases hstep
  obtain ⟨rfl, rfl⟩ := List.cons.inj (hin.symm.trans hin')
  rwa [lineOps_of_sampleEdge hops]

/-- What an edge does to the fields that are not registers (10_state.md R26, 70_reset_and_hazards.md R172). -/
theorem step_parameter_and_lines {s t : State} (hstep : step s = .next t) :
    t.STRICT_PADDING = s.STRICT_PADDING ∧ s.inputs.tail = t.inputs := by
  obtain ⟨v, rest, ops, hin, -, hrun⟩ := step_cases hstep
  obtain ⟨t', hrun', hlines, hparam⟩ := runOps_next ops (withInputs rest s)
  obtain rfl := Host.Outcome.next.inj (hrun.symm.trans hrun')
  exact ⟨hparam, by rw [hin, hlines]; rfl⟩

/-- A run of at least one step that answers a next state took its first step and went on from there. -/
theorem run_succ_cases (M : Host.Core) {n : Nat} {s u : M.State} (h : M.run (n + 1) s = .next u) :
    ∃ t, M.step s = .next t ∧ M.run n t = .next u := by
  simp only [Host.Core.run] at h
  split at h
  · exact ⟨_, ‹_›, h⟩
  · cases h
  · cases h

/-! ## Invariants with a history -/

/-- `R a s` says how the state `s` shows the history `a`, and `f` says how an operation changes the history: the host's
lines have no part in `R`, and the writes of each of the five operations keep it. An invariant without a history is
the case where the history is `Unit`. -/
structure TracksOps {α : Type} (f : α → Instr → α) (R : α → State → Prop) : Prop where
  lines {a : α} {s : State} (l : List EdgeInput) : R a s → R a (withInputs l s)
  enc {a : α} {s : State} (id : Identifier) : R a s → R (f a (.enc id)) (writeEncResult (encodeId id) s)
  encIdle {a : α} {s : State} : R a s → R (f a .encIdle) (clearEncValid s)
  dec {a : α} {s : State} (len : TokenLength) (tok : CharBus) :
    R a s → R (f a (.dec len tok)) (writeDecResult (decodeToken s.STRICT_PADDING len tok) s)
  decIdle {a : α} {s : State} : R a s → R (f a .decIdle) (clearDecValid s)
  reset {a : α} {s : State} : R a s → R (f a .reset) (resetRegisters s)

section TracksOps

variable {α : Type} {f : α → Instr → α} {R : α → State → Prop} {a : α} {s t : State}

theorem TracksOps.exec_keeps (T : TracksOps f R) {i : Instr} (hR : R a s) (hexec : exec i s = .next t) :
    R (f a i) t := by
  rcases exec_cases i s with ⟨id, rfl, h⟩ | ⟨rfl, h⟩ | ⟨len, tok, rfl, h⟩ | ⟨rfl, h⟩ | ⟨rfl, h⟩ <;>
    obtain rfl := Host.Outcome.next.inj (h.symm.trans hexec)
  · exact T.enc id hR
  · exact T.encIdle hR
  · exact T.dec len tok hR
  · exact T.decIdle hR
  · exact T.reset hR

theorem TracksOps.runOps_keeps (T : TracksOps f R) {ops : List Instr} (hR : R a s)
    (hrun : runOps ops s = .next t) : R (ops.foldl f a) t := by
  induction ops generalizing a s with
  | nil => exact Host.Outcome.next.inj hrun ▸ hR
  | cons i ops ih =>
    simp only [runOps] at hrun
    split at hrun
    · rename_i u hexec
      exact ih (T.exec_keeps hR hexec) hrun
    · cases hrun
    · cases hrun

theorem TracksOps.step_keeps (T : TracksOps f R) {v : EdgeInput} {rest : List EdgeInput} (hR : R a s)
    (hin : s.inputs = v :: rest) (hstep : step s = .next t) : R ((lineOps v).foldl f a) t :=
  T.runOps_keeps (T.lines rest hR) (step_runs_lineOps hin hstep)

theorem TracksOps.run_keeps (T : TracksOps f R) {lines : List EdgeInput} (hR : R a s) (hin : s.inputs = lines)
    (hrun : Host.Core.run core lines.length s = .next t) : R ((lines.flatMap lineOps).foldl f a) t := by
  induction lines generalizing a s with
  | nil => exact Host.Outcome.next.inj hrun ▸ hR
  | cons v rest ih =>
    obtain ⟨u, hstep, hrest⟩ := run_succ_cases core hrun
    have hlines : u.inputs = rest := by rw [← (step_parameter_and_lines hstep).2, hin]; rfl
    rw [List.flatMap_cons, List.foldl_append]
    exact ih (T.step_keeps hR hin hstep) hlines hrest

end TracksOps

/-! ## The most recent request of each channel (10_state.md R33 items 1 and 3) -/

/-- ENC and RESET write what the encoder then shows; the other operations write no data register of the encoder. -/
theorem encoderShows_tracks : TracksOps lastEncodedAfter EncoderShows where
  lines _ h := h
  enc _ _ := ⟨rfl, rfl⟩
  encIdle h := h
  dec _ _ h := h
  decIdle h := h
  reset _ := ⟨rfl, rfl⟩

/-- DEC and RESET write what the decoder then shows; the other operations write no data register of the decoder and
not the parameter. -/
theorem decoderShows_tracks : TracksOps lastDecodedAfter DecoderShows where
  lines _ h := h
  enc _ h := h
  encIdle h := h
  dec _ _ _ := ⟨rfl, rfl, rfl, rfl, rfl⟩
  decIdle h := h
  reset _ := ⟨rfl, rfl, rfl, rfl, rfl⟩

theorem parameter_tracks (strict : Bool) :
    TracksOps (fun (_ : Unit) _ => ()) (fun _ s => s.STRICT_PADDING = strict) where
  lines _ h := h
  enc _ h := h
  encIdle h := h
  dec _ _ h := h
  decIdle h := h
  reset h := h

/-! ## The invariant (10_state.md R33, 60_exceptions.md R140) -/

/-- What every answer of `Decode` meets under the parameter `strict`: items 3 to 6 of 10_state.md R33 and the
condition of 60_exceptions.md R140, on the record. -/
structure SoundVerdict (strict : Bool) (r : DecResult) : Prop where
  success_iff : r.ok = 1#1 ↔ r.err = errNone
  failure : r.ok = 0#1 → r.id = 0#128 ∧ r.sex = 0#132
  badLanes : r.bad ≠ 0#22 ↔ r.err = errInvalidSymbol
  identifier : r.ok = 1#1 → r.id = payloadBits r.sex
  strictPadding : r.ok = 1#1 → strict = true → paddingBits r.sex = 0#4
  paddingCode : r.err = errInvalidPadding → strict = true

theorem failedDecode_sound {strict : Bool} {err : ErrCode} {bad : BadMask} (herr : err ≠ errNone)
    (hbad : bad ≠ 0#22 ↔ err = errInvalidSymbol) (hpad : err = errInvalidPadding → strict = true) :
    SoundVerdict strict (failedDecode err bad) where
  success_iff := iff_of_false (by simp [failedDecode]) herr
  failure _ := ⟨rfl, rfl⟩
  badLanes := hbad
  identifier h := absurd h (by simp [failedDecode])
  strictPadding h := absurd h (by simp [failedDecode])
  paddingCode := hpad

theorem successfulDecode_sound {strict : Bool} {w : SextetBus} (hpad : strict = true → paddingBits w = 0#4) :
    SoundVerdict strict (successfulDecode w) where
  success_iff := iff_of_true rfl rfl
  failure h := absurd h (by simp [successfulDecode])
  badLanes := iff_of_false (by simp [successfulDecode]) (by simp [successfulDecode, errNone, errInvalidSymbol])
  identifier _ := rfl
  strictPadding _ := hpad
  paddingCode h := absurd h (by simp [successfulDecode, errNone, errInvalidPadding])

theorem decodeToken_sound (strict : Bool) (len : TokenLength) (tok : CharBus) :
    SoundVerdict strict (decodeToken strict len tok) := by
  rcases decodeToken_cases strict len tok with
    ⟨-, h⟩ | ⟨-, hbad, h⟩ | ⟨-, -, hstrict, -, h⟩ | ⟨-, -, hpad, h⟩ <;> rw [h]
  · exact failedDecode_sound (by decide) (by decide) (fun h => absurd h (by decide))
  · exact failedDecode_sound (by decide) (iff_of_true hbad rfl) (fun h => absurd h (by decide))
  · exact failedDecode_sound (by decide) (by decide) (fun _ => hstrict)
  · exact successfulDecode_sound hpad

theorem inv_resetRegisters (s : State) : Inv (resetRegisters s) where
  encoder := .inl ⟨rfl, rfl, rfl⟩
  lanes := .inl rfl
  padding := (by decide : paddingBits 0#132 = 0b0000#4)
  decoder := .inl ⟨rfl, rfl, rfl, rfl, rfl, rfl⟩
  verdict h := absurd h (by simp)
  success _ := rfl
  failure _ := ⟨rfl, rfl⟩
  badLanes := by simp [errInvalidSymbol]
  identifier h := absurd h (by simp)
  strictPadding h := absurd h (by simp)
  paddingCode h := absurd h (by simp [errInvalidPadding])

theorem inv_withInputs {s : State} (lines : List EdgeInput) (h : Inv s) : Inv (withInputs lines s) :=
  { h with }

theorem inv_writeEncResult {s : State} (id : Identifier) (h : Inv s) : Inv (writeEncResult (encodeId id) s) :=
  { h with
    encoder := .inr ⟨id, rfl, rfl⟩
    lanes := .inr fun k => by simp
    padding := by simp }

theorem inv_clearEncValid {s : State} (h : Inv s) : Inv (clearEncValid s) :=
  { h with encoder := h.encoder.imp_left fun ⟨_, hdata⟩ => ⟨rfl, hdata⟩ }

theorem inv_writeDecResult {s : State} (len : TokenLength) (tok : CharBus) (h : Inv s) :
    Inv (writeDecResult (decodeToken s.STRICT_PADDING len tok) s) :=
  have hr := decodeToken_sound s.STRICT_PADDING len tok
  { h with
    decoder := .inr ⟨len, tok, rfl, rfl, rfl, rfl, rfl⟩
    verdict := fun _ => hr.success_iff
    success := hr.success_iff.mp
    failure := hr.failure
    badLanes := hr.badLanes
    identifier := hr.identifier
    strictPadding := hr.strictPadding
    paddingCode := hr.paddingCode }

theorem inv_clearDecValid {s : State} (h : Inv s) : Inv (clearDecValid s) :=
  { h with
    decoder := h.decoder.imp_left fun ⟨_, hdata⟩ => ⟨rfl, hdata⟩
    verdict := fun hvld => absurd hvld (by simp) }

theorem inv_tracks : TracksOps (fun (_ : Unit) _ => ()) (fun _ s => Inv s) where
  lines := inv_withInputs
  enc := inv_writeEncResult
  encIdle := inv_clearEncValid
  dec := inv_writeDecResult
  decIdle := inv_clearDecValid
  reset _ := inv_resetRegisters _

/-! ## Reset edges -/

theorem hostDutyBroken_of_not_performsDec {v : EdgeInput} (h : performsDec v = false) : hostDutyBroken v = none := by
  unfold hostDutyBroken
  split
  · rw [h]; rfl
  · rfl

theorem sampleEdge_of_rst {v : EdgeInput} {d e : Bit} (hrst : v.rst = some 1#1) (hdec : v.dec_req = some d)
    (henc : v.enc_req = some e) : sampleEdge v = .ok [.reset] := by
  have hrow : ∀ d e : Bit, rowReset.hits (ctlWord 1#1 d e) = true := by decide
  have hops : decodeEdge v = .ok [.reset] := by
    simp only [decodeEdge, hrst, hdec, henc, decodeCtl, hrow, if_true]
  have hduty : hostDutyBroken v = none :=
    hostDutyBroken_of_not_performsDec (by rw [performsDec, hrst]; rfl)
  simp only [sampleEdge, hops, hduty]

/-- An edge with `rst` = 1 performs RESET alone (70_reset_and_hazards.md R160). -/
theorem step_of_rst {s : State} {v : EdgeInput} {rest : List EdgeInput} {d e : Bit} (hin : s.inputs = v :: rest)
    (hrst : v.rst = some 1#1) (hdec : v.dec_req = some d) (henc : v.enc_req = some e) :
    step s = .next (resetRegisters (withInputs rest s)) := by
  simp only [step, hin, sampleEdge_of_rst hrst hdec henc]
  rfl

/-! ## What each channel holds after an edge, as a function of what it can see (10_state.md R20) -/

/-- The registers of the encoder channel. -/
def encoderRegs (s : State) : Bit × SextetBus × CharBus := (s.E_VLD, s.E_SEX, s.E_CHR)

/-- The registers of the decoder channel. -/
def decoderRegs (s : State) : Bit × DecResult := (s.D_VLD, ⟨s.D_OK, s.D_ERR, s.D_ID, s.D_SEX, s.D_BAD⟩)

/-- The encoder's registers after an edge, from those before it and the ports the channel samples. -/
def encoderNext (rst enc_req : Option Bit) (enc_id : Option Identifier) (r : Bit × SextetBus × CharBus) :
    Bit × SextetBus × CharBus :=
  if rst = some 1#1 then (0#1, 0#132, 0#176)
  else if enc_req = some 1#1 then (1#1, (encodeId (enc_id.getD 0#128)).sex, (encodeId (enc_id.getD 0#128)).chr)
  else (0#1, r.2)

/-- The decoder's registers after an edge, from those before it, the parameter and the ports the channel samples. -/
def decoderNext (strict : Bool) (rst dec_req : Option Bit) (dec_len : Option TokenLength) (dec_tok : Option CharBus)
    (r : Bit × DecResult) : Bit × DecResult :=
  if rst = some 1#1 then (0#1, ⟨0#1, 0b00#2, 0#128, 0#132, 0#22⟩)
  else if dec_req = some 1#1 then (1#1, decodeToken strict (dec_len.getD 0#8) (dec_tok.getD 0#176))
  else (0#1, r.2)

theorem encoderRegs_eq_iff {s t : State} :
    encoderRegs s = encoderRegs t ↔ s.E_VLD = t.E_VLD ∧ s.E_SEX = t.E_SEX ∧ s.E_CHR = t.E_CHR := by
  simp [encoderRegs]

theorem decoderRegs_eq_iff {s t : State} :
    decoderRegs s = decoderRegs t ↔ s.D_VLD = t.D_VLD ∧ s.D_OK = t.D_OK ∧ s.D_ERR = t.D_ERR ∧
      s.D_ID = t.D_ID ∧ s.D_SEX = t.D_SEX ∧ s.D_BAD = t.D_BAD := by
  simp [decoderRegs]

theorem encoderRegs_step {s t : State} {v : EdgeInput} {rest : List EdgeInput} (hin : s.inputs = v :: rest)
    (hstep : step s = .next t) : encoderRegs t = encoderNext v.rst v.enc_req v.enc_id (encoderRegs s) := by
  obtain ⟨v', rest', hin', hedge⟩ := edge_cases hstep
  obtain ⟨rfl, rfl⟩ := List.cons.inj (hin.symm.trans hin')
  rcases hedge with ⟨hrst, rfl⟩ | ⟨hrst, te, henc, hdec⟩
  · simp [encoderNext, hrst, encoderRegs]
  · have hkeep : encoderRegs t = encoderRegs te := by
      rcases hdec with ⟨_, _, -, -, -, rfl⟩ | ⟨-, rfl⟩ <;> rfl
    rw [hkeep]
    rcases henc with ⟨id, hreq, hid, rfl⟩ | ⟨hreq, rfl⟩
    · simp [encoderNext, hrst, hreq, hid, encoderRegs]
    · simp [encoderNext, hrst, hreq, encoderRegs]

theorem decoderRegs_step {s t : State} {v : EdgeInput} {rest : List EdgeInput} (hin : s.inputs = v :: rest)
    (hstep : step s = .next t) :
    decoderRegs t = decoderNext s.STRICT_PADDING v.rst v.dec_req v.dec_len v.dec_tok (decoderRegs s) := by
  obtain ⟨v', rest', hin', hedge⟩ := edge_cases hstep
  obtain ⟨rfl, rfl⟩ := List.cons.inj (hin.symm.trans hin')
  rcases hedge with ⟨hrst, rfl⟩ | ⟨hrst, te, henc, hdec⟩
  · simp [decoderNext, hrst, decoderRegs]
  · have hkeep : decoderRegs te = decoderRegs s := by
      rcases henc with ⟨_, -, -, rfl⟩ | ⟨-, rfl⟩ <;> rfl
    rw [← hkeep]
    rcases hdec with ⟨len, tok, hreq, hlen, htok, rfl⟩ | ⟨hreq, rfl⟩
    · have hoperand : v.dec_tok.getD 0#176 = tok := by
        rcases htok with htok | ⟨htok, -, rfl⟩ <;> rw [htok] <;> rfl
      simp [decoderNext, hrst, hreq, hlen, hoperand, decoderRegs]
    · simp [decoderNext, hrst, hreq, decoderRegs]

/-! ## The statements -/

/-- Settles O7: the writes of each operation keep the invariant, so an edge does. -/
theorem everyEdgeKeepsTheInvariant : Obligations.EveryEdgeKeepsTheInvariant := by
  intro s t hinv hstep
  obtain ⟨v, rest, -, hin, -, -⟩ := step_cases hstep
  exact inv_tracks.step_keeps (a := ()) hinv hin hstep

/-- Settles O57: an accepted line completes, and the writes of each operation keep each channel showing its history. -/
theorem everyEdgeKeepsShowingTheMostRecentRequest : Obligations.EveryEdgeKeepsShowingTheMostRecentRequest := by
  intro s v rest h g hin haccepted henc hdec
  obtain ⟨t, hstep, -, hlines, -⟩ := step_of_accepted hin haccepted
  exact ⟨t, hstep, hlines, encoderShows_tracks.step_keeps henc hin hstep,
    decoderShows_tracks.step_keeps hdec hin hstep⟩

/-- Settles O4: the operations of an edge touch neither the parameter nor the remaining lines. -/
theorem stepKeepsTheParameter : Obligations.StepKeepsTheParameter :=
  fun _ _ => step_parameter_and_lines

/-- Settles O5: each channel after an edge is a function of what it held and of its own ports. -/
theorem channelsCannotObserveEachOther : Obligations.ChannelsCannotObserveEachOther := by
  intro s s' t t' v v' rest rest' hin hin' hstep hstep' hrst
  constructor
  · intro hvld hsex hchr hreq hid
    rw [← encoderRegs_eq_iff, encoderRegs_step hin hstep, encoderRegs_step hin' hstep', hrst, hreq, hid,
      encoderRegs_eq_iff.mpr ⟨hvld, hsex, hchr⟩]
  · intro hvld hok herr hid hsex hbad hstrict hreq hlen htok
    rw [← decoderRegs_eq_iff, decoderRegs_step hin hstep, decoderRegs_step hin' hstep', hrst, hstrict, hreq,
      hlen, htok, decoderRegs_eq_iff.mpr ⟨hvld, hok, herr, hid, hsex, hbad⟩]

/-- Settles O8: at the start of a run each channel shows no request, and every operation of the run keeps it showing
the most recent one, under the parameter of the start. -/
theorem registersShowTheMostRecentRequest : Obligations.RegistersShowTheMostRecentRequest := by
  intro strict lines t _ hrun
  have hencStart : EncoderShows none (runStart strict lines) := ⟨rfl, rfl⟩
  have hdecStart : DecoderShows none (runStart strict lines) := ⟨rfl, rfl, rfl, rfl, rfl⟩
  have henc := encoderShows_tracks.run_keeps hencStart rfl hrun
  have hdec := decoderShows_tracks.run_keeps hdecStart rfl hrun
  have hparam := (parameter_tracks strict).run_keeps (a := ()) (s := runStart strict lines) rfl rfl hrun
  subst hparam
  exact ⟨henc, hdec⟩

/-- Settles O1: the reset state is written out with these values. -/
theorem resetValuesOfEveryRegister : Obligations.ResetValuesOfEveryRegister :=
  ⟨rfl, rfl, rfl, rfl, rfl, rfl, rfl, rfl, rfl⟩

/-- Settles O2: the ports are projections of the registers, which the lines do not touch. -/
theorem outputsAreDrivenOnlyByRegisters : Obligations.OutputsAreDrivenOnlyByRegisters :=
  fun _ => ⟨rfl, rfl, rfl, rfl, rfl, rfl, rfl, rfl, rfl, fun _ => rfl⟩

/-- Settles O3: RESET writes every register, so nothing of the power-up values is left. -/
theorem oneResetEdgeEndsPowerUp : Obligations.OneResetEdgeEndsPowerUp :=
  fun _ _ _ _ _ _ hrst hdec henc => step_of_rst rfl hrst hdec henc

/-- Settles O6: the reset state and the start of a run hold what RESET writes. -/
theorem resetMeetsTheInvariant : Obligations.ResetMeetsTheInvariant :=
  ⟨inv_resetRegisters State.reset, fun strict lines => inv_resetRegisters (runStart strict lines)⟩

end Sys2Proof.Proofs

/-! # The memory family (20_memory.md): lemmas and the statements they settle -/

namespace Sys2Proof.Proofs

open Sys2Proof.Machine Sys2Proof.Laws

/-! ## The bytes of a GUID (20_memory.md R56) -/

@[simp] theorem guidIdentifier_byteLane (g : Guid) (j : ByteLane) : byteLane (guidIdentifier g) j = guidByte g j :=
  byteLane_packBytes _ j

section GuidBytes

variable (g : Guid) {n : Nat}

theorem guidByte_fieldA (h : n < 4) : guidByte g (Fin.ofNat 16 n) = g.a.extractLsb' (8 * n) 8 := by
  have hlane : (Fin.ofNat 16 n).val = n := Nat.mod_eq_of_lt (by omega)
  rw [guidByte, hlane, if_pos h]

theorem guidByte_fieldB (h : n < 2) : guidByte g (Fin.ofNat 16 (4 + n)) = g.b.extractLsb' (8 * n) 8 := by
  have hlane : (Fin.ofNat 16 (4 + n)).val = 4 + n := Nat.mod_eq_of_lt (by omega)
  rw [guidByte, hlane, if_neg (by omega), if_pos (by omega), Nat.add_sub_cancel_left]

theorem guidByte_fieldC (h : n < 2) : guidByte g (Fin.ofNat 16 (6 + n)) = g.c.extractLsb' (8 * n) 8 := by
  have hlane : (Fin.ofNat 16 (6 + n)).val = 6 + n := Nat.mod_eq_of_lt (by omega)
  rw [guidByte, hlane, if_neg (by omega), if_neg (by omega), if_pos (by omega), Nat.add_sub_cancel_left]

theorem guidByte_fieldD (h : n < 2) : guidByte g (Fin.ofNat 16 (8 + n)) = g.d.extractLsb' (8 - 8 * n) 8 := by
  have hlane : (Fin.ofNat 16 (8 + n)).val = 8 + n := Nat.mod_eq_of_lt (by omega)
  rw [guidByte, hlane, if_neg (by omega), if_neg (by omega), if_neg (by omega), if_pos (by omega),
    Nat.add_sub_cancel_left]

theorem guidByte_fieldE (h : n < 6) : guidByte g (Fin.ofNat 16 (10 + n)) = g.e.extractLsb' (40 - 8 * n) 8 := by
  have hlane : (Fin.ofNat 16 (10 + n)).val = 10 + n := Nat.mod_eq_of_lt (by omega)
  rw [guidByte, hlane, if_neg (by omega), if_neg (by omega), if_neg (by omega), if_neg (by omega),
    Nat.add_sub_cancel_left]

end GuidBytes

/-! ## The two operations of one edge (20_memory.md R62, 00_scope.md R9) -/

theorem exec_completes (i : Instr) (s : State) : ∃ t, exec i s = .next t := by
  rcases exec_cases i s with ⟨_, -, h⟩ | ⟨-, h⟩ | ⟨_, _, -, h⟩ | ⟨-, h⟩ | ⟨-, h⟩ <;> exact ⟨_, h⟩

theorem isEncOp_cases {e : Instr} (h : e.isEncOp = true) : (∃ id, e = .enc id) ∨ e = .encIdle := by
  cases e with
  | enc id => exact .inl ⟨id, rfl⟩
  | encIdle => exact .inr rfl
  | dec | decIdle | reset => cases h

theorem isDecOp_cases {d : Instr} (h : d.isDecOp = true) : (∃ len tok, d = .dec len tok) ∨ d = .decIdle := by
  cases d with
  | dec len tok => exact .inl ⟨len, tok, rfl⟩
  | decIdle => exact .inr rfl
  | enc | encIdle | reset => cases h

/-- The encoder's registers of `te` beside everything else of `td`: what an edge leaves when each channel's operation
reads the state from before the edge. -/
def joinChannels (te td : State) : State := { td with E_VLD := te.E_VLD, E_SEX := te.E_SEX, E_CHR := te.E_CHR }

/-- Neither operation reads what the other writes, so in either order they leave the join of what each leaves alone. -/
theorem runOps_both_orders {e d : Instr} {s te td : State} (he : e.isEncOp = true) (hd : d.isDecOp = true)
    (hte : exec e s = .next te) (htd : exec d s = .next td) :
    runOps [e, d] s = .next (joinChannels te td) ∧ runOps [d, e] s = .next (joinChannels te td) := by
  rcases isEncOp_cases he with ⟨id, rfl⟩ | rfl <;> obtain rfl := Host.Outcome.next.inj hte <;>
    rcases isDecOp_cases hd with ⟨len, tok, rfl⟩ | rfl <;> obtain rfl := Host.Outcome.next.inj htd <;>
    exact ⟨rfl, rfl⟩

/-! ## The statements -/

/-- Settles O9: byte lane j of the packed bytes is byte j, whose field and place are read off its number. -/
theorem guidBytesFollowTheMixedLayout : Obligations.GuidBytesFollowTheMixedLayout := by
  intro g
  simp only [guidIdentifier_byteLane]
  exact ⟨fun j => guidByte_fieldA g j.isLt, fun j => guidByte_fieldB g j.isLt, fun j => guidByte_fieldC g j.isLt,
    fun j => guidByte_fieldD g j.isLt, fun j => guidByte_fieldE g j.isLt, by decide⟩

/-- Settles O10: both orders leave the join of what the two operations leave alone. -/
theorem operationsOfOneEdgeAreIndependent : Obligations.OperationsOfOneEdgeAreIndependent := by
  intro e d s he hd
  obtain ⟨te, hte⟩ := exec_completes e s
  obtain ⟨td, htd⟩ := exec_completes d s
  obtain ⟨hed, hde⟩ := runOps_both_orders he hd hte htd
  exact ⟨hed.trans hde.symm, te, td, joinChannels te td, hte, htd, hed, rfl, rfl, rfl, rfl, rfl, rfl, rfl, rfl, rfl⟩

end Sys2Proof.Proofs

/-! # The encoding family (30_encoding.md): lemmas and the statements they settle -/

namespace Sys2Proof.Proofs

open Sys2Proof.Machine Sys2Proof.Laws

/-! ## The rows a control word selects, by its request bits (30_encoding.md R71, R74) -/

@[simp] theorem rowReset_hits_ctlWord (r d e : Bit) : rowReset.hits (ctlWord r d e) = decide (r = 1#1) := by
  revert r d e; decide

@[simp] theorem rowEnc_hits_ctlWord (r d e : Bit) :
    rowEnc.hits (ctlWord r d e) = decide (r = 0#1 ∧ e = 1#1) := by
  revert r d e; decide

@[simp] theorem rowDec_hits_ctlWord (r d e : Bit) :
    rowDec.hits (ctlWord r d e) = decide (r = 0#1 ∧ d = 1#1) := by
  revert r d e; decide

/-! ## What decoding a line answers -/

@[simp] theorem decodeCtl_resetting (d e : Bit) (v : EdgeInput) : decodeCtl (ctlWord 1#1 d e) v = .ok [.reset] := by
  simp [decodeCtl]

/-- With `rst` = 0 each channel decodes its own operation, the encoder's rejection first. -/
theorem decodeCtl_running (d e : Bit) (v : EdgeInput) :
    decodeCtl (ctlWord 0#1 d e) v = do
      let i ← decodeEncOp (ctlWord 0#1 d e) v
      let j ← decodeDecOp (ctlWord 0#1 d e) v
      return [i, j] := by
  unfold decodeCtl
  rw [if_neg (by simp)]
  cases decodeEncOp (ctlWord 0#1 d e) v <;> cases decodeDecOp (ctlWord 0#1 d e) v <;> rfl

/-- A decoded line has `rst` = 1 and gives RESET, or it has `rst` = 0 and gives what each channel decodes. -/
theorem decodeEdge_cases {v : EdgeInput} {ops : List Instr} (h : decodeEdge v = .ok ops) :
    ∃ d e, v.dec_req = some d ∧ v.enc_req = some e ∧
      ((v.rst = some 1#1 ∧ ops = [.reset]) ∨
       (v.rst = some 0#1 ∧ ∃ i j, ops = [i, j] ∧ decodeEncOp (ctlWord 0#1 d e) v = .ok i ∧
        decodeDecOp (ctlWord 0#1 d e) v = .ok j)) := by
  obtain ⟨r, d, e, hr, hd, he, hctl⟩ := decodeEdge_ctl h
  refine ⟨d, e, hd, he, ?_⟩
  rcases bit_zero_or_one r with rfl | rfl
  · rw [decodeCtl_running] at hctl
    cases hi : decodeEncOp (ctlWord 0#1 d e) v with
    | error why => rw [hi] at hctl; cases hctl
    | ok i =>
      cases hj : decodeDecOp (ctlWord 0#1 d e) v with
      | error why => rw [hi, hj] at hctl; cases hctl
      | ok j =>
        rw [hi, hj] at hctl
        exact .inr ⟨hr, i, j, (Except.ok.inj hctl).symm, rfl, rfl⟩
  · rw [decodeCtl_resetting] at hctl
    exact .inl ⟨hr, (Except.ok.inj hctl).symm⟩

theorem decodeEncOp_error {ctl : Ctl} {v : EdgeInput} {why : InputReject} (h : decodeEncOp ctl v = .error why) :
    ∃ p, why = .undefinedInput p := by
  unfold decodeEncOp at h
  split at h
  · split at h <;> cases h
    exact ⟨_, rfl⟩
  · cases h

theorem decodeDecOp_error {ctl : Ctl} {v : EdgeInput} {why : InputReject} (h : decodeDecOp ctl v = .error why) :
    ∃ p, why = .undefinedInput p := by
  unfold decodeDecOp at h
  split at h
  · split at h
    · cases h; exact ⟨_, rfl⟩
    · cases h
    · split at h <;> cases h
      exact ⟨_, rfl⟩
  · cases h

/-- Decoding rejects a line for an undefined input only (30_encoding.md R80). -/
theorem decodeEdge_error {v : EdgeInput} {why : InputReject} (h : decodeEdge v = .error why) :
    ∃ p, why = .undefinedInput p := by
  unfold decodeEdge at h
  split at h
  · cases h; exact ⟨_, rfl⟩
  · cases h; exact ⟨_, rfl⟩
  · cases h; exact ⟨_, rfl⟩
  · unfold decodeCtl at h
    split at h
    · cases h
    · split at h
      · cases h
      · cases h; exact decodeEncOp_error ‹_›
      · cases h; exact decodeDecOp_error ‹_›

/-- The line of an edge whose ports are all defined decodes as 30_encoding.md R70 dispatches it. -/
theorem decodeEdge_of_defined (r d e : Bit) (id : Identifier) (len : TokenLength) (tok : CharBus)
    (text : Option (List Nat)) :
    decodeEdge ⟨some r, some d, some e, some id, some len, some tok, text⟩ =
      .ok (if r = 1#1 then [.reset]
        else [if e = 1#1 then .enc id else .encIdle, if d = 1#1 then .dec len tok else .decIdle]) := by
  rcases bit_zero_or_one r with rfl | rfl
  · rcases bit_zero_or_one d with rfl | rfl <;> rcases bit_zero_or_one e with rfl | rfl <;> rfl
  · exact decodeCtl_resetting d e _

/-- Well-formed operations of an edge are RESET alone or one operation of each channel (30_encoding.md R70, R74). -/
theorem edgeOpsWf_iff (ops : List Instr) :
    edgeOpsWf ops = true ↔ ops = [.reset] ∨ ∃ i j, ops = [i, j] ∧ i.isEncOp = true ∧ j.isDecOp = true := by
  match ops with
  | [] => simp [edgeOpsWf]
  | [i] => simp [edgeOpsWf]
  | [i, j] => simp [edgeOpsWf]
  | _ :: _ :: _ :: _ => simp [edgeOpsWf]

theorem isEncOp_of_decodeEncOp {ctl : Ctl} {v : EdgeInput} {i : Instr} (h : decodeEncOp ctl v = .ok i) :
    i.isEncOp = true := by
  rcases decodeEncOp_cases h with ⟨-, _, -, rfl⟩ | ⟨-, rfl⟩ <;> rfl

theorem isDecOp_of_decodeDecOp {ctl : Ctl} {v : EdgeInput} {i : Instr} (h : decodeDecOp ctl v = .ok i) :
    i.isDecOp = true := by
  rcases decodeDecOp_cases h with ⟨-, _, _, -, -, rfl⟩ | ⟨-, rfl⟩ <;> rfl

/-! ## What a step does with a decoded line -/

@[simp] theorem runOps_singleton (i : Instr) (s : State) : runOps [i] s = exec i s := by
  obtain ⟨t, ht⟩ := exec_completes i s
  simp only [runOps, ht]

theorem runOps_pair {i : Instr} {s t : State} (j : Instr) (h : exec i s = .next t) : runOps [i, j] s = exec j t := by
  rw [← runOps_singleton j t]
  simp only [runOps, h]

/-- A line that decodes and breaks no host duty is an edge that runs its operations. -/
theorem step_of_decodeEdge {s : State} {v : EdgeInput} {rest : List EdgeInput} {ops : List Instr}
    (hin : s.inputs = v :: rest) (hops : decodeEdge v = .ok ops) (hduty : hostDutyBroken v = none) :
    step s = runOps ops (withInputs rest s) := by
  simp only [step, hin, sampleEdge, hops, hduty]

/-- A line that does not decode is refused for the decoder's reason. -/
theorem step_of_decodeEdge_error {s : State} {v : EdgeInput} {rest : List EdgeInput} {why : InputReject}
    (hin : s.inputs = v :: rest) (h : decodeEdge v = .error why) : step s = .refused (.inputRejected why) := by
  simp only [step, hin, sampleEdge, h]

/-! ## Lines that differ in what no operation shows (10_state.md R22, 30_encoding.md R75) -/

/-- Two answers of decoding that cannot be told apart by running them: the same rejection, or the same effect. -/
inductive SameEffect {α : Type} (run : α → State → Host.Outcome State Fault Refusal) :
    Except InputReject α → Except InputReject α → Prop
  | rejected (why : InputReject) : SameEffect run (.error why) (.error why)
  | runs {x y : α} (h : run x = run y) : SameEffect run (.ok x) (.ok y)

theorem SameEffect.refl {α : Type} (run : α → State → Host.Outcome State Fault Refusal) (a : Except InputReject α) :
    SameEffect run a a := by
  cases a with
  | error why => exact .rejected why
  | ok x => exact .runs rfl

section SampledAlike

variable {v w : EdgeInput}

/-- Lines with the same request bits decode to the same effect if, where `rst` = 0, each channel's operations do. -/
theorem decodeEdge_sameEffect (hrst : w.rst = v.rst) (hdec : w.dec_req = v.dec_req) (henc : w.enc_req = v.enc_req)
    (hops : ∀ d e, v.rst = some 0#1 → v.dec_req = some d → v.enc_req = some e →
      decodeEncOp (ctlWord 0#1 d e) w = decodeEncOp (ctlWord 0#1 d e) v ∧
      SameEffect exec (decodeDecOp (ctlWord 0#1 d e) w) (decodeDecOp (ctlWord 0#1 d e) v)) :
    SameEffect runOps (decodeEdge w) (decodeEdge v) := by
  unfold decodeEdge
  rw [hrst, hdec, henc]
  split
  · exact .rejected _
  · exact .rejected _
  · exact .rejected _
  · rename_i r d e hr hd he
    rcases bit_zero_or_one r with rfl | rfl
    · obtain ⟨hi, hj⟩ := hops d e hr hd he
      rw [decodeCtl_running, decodeCtl_running, hi]
      cases decodeEncOp (ctlWord 0#1 d e) v with
      | error why => exact .rejected why
      | ok i =>
        generalize decodeDecOp (ctlWord 0#1 d e) w = a, decodeDecOp (ctlWord 0#1 d e) v = b at hj
        cases hj with
        | rejected why => exact .rejected why
        | runs h =>
          refine .runs (funext fun s => ?_)
          obtain ⟨t, ht⟩ := exec_completes i s
          rw [runOps_pair _ ht, runOps_pair _ ht, h]
    · rw [decodeCtl_resetting, decodeCtl_resetting]
      exact SameEffect.refl _ _

/-- Lines that decode to the same effect and break the same host duty are the same edge. -/
theorem step_congr (s : State) (rest : List EdgeInput) (hops : SameEffect runOps (decodeEdge w) (decodeEdge v))
    (hduty : hostDutyBroken w = hostDutyBroken v) :
    step (withInputs (w :: rest) s) = step (withInputs (v :: rest) s) := by
  simp only [step, withInputs_inputs, sampleEdge, hduty]
  generalize decodeEdge w = a, decodeEdge v = b at hops
  cases hops with
  | rejected why => rfl
  | runs h =>
    cases hostDutyBroken v with
    | some why => rfl
    | none => exact congrFun h _

end SampledAlike

theorem decodeEncOp_idle (d : Bit) (v : EdgeInput) : decodeEncOp (ctlWord 0#1 d 0#1) v = .ok .encIdle := by
  simp [decodeEncOp]

theorem decodeDecOp_idle (e : Bit) (v : EdgeInput) : decodeDecOp (ctlWord 0#1 0#1 e) v = .ok .decIdle := by
  simp [decodeDecOp]

/-- With a length other than 22 a DEC is decoded whatever the token port carries. -/
theorem decodeDecOp_of_length_ne {v : EdgeInput} {n : TokenLength} (e : Bit) (hlen : v.dec_len = some n)
    (hn : n ≠ 22#8) : ∃ tok, decodeDecOp (ctlWord 0#1 1#1 e) v = .ok (.dec n tok) := by
  cases htok : v.dec_tok with
  | none => exact ⟨0#176, by simp [decodeDecOp, hlen, htok, hn]⟩
  | some tok => exact ⟨tok, by simp [decodeDecOp, hlen, htok]⟩

/-- With a length other than 22 the verdict does not depend on the token (60_exceptions.md R141). -/
theorem exec_dec_of_length_ne {n : TokenLength} (hn : n ≠ 22#8) (tok tok' : CharBus) :
    exec (.dec n tok) = exec (.dec n tok') := by
  have hverdict (strict : Bool) : decodeToken strict n tok = decodeToken strict n tok' := by simp [decodeToken, hn]
  exact funext fun s => congrArg (fun r => Host.Outcome.next (writeDecResult r s)) (hverdict s.STRICT_PADDING)

theorem hostDutyBroken_of_length_ne {v : EdgeInput} {n : TokenLength} (hlen : v.dec_len = some n) (hn : n ≠ 22#8) :
    hostDutyBroken v = none := by
  unfold hostDutyBroken
  split
  · simp [hlen, hn]
  · rfl

/-! ## The verdicts of `Decode` by their causes (60_exceptions.md R141 to R143) -/

section Verdicts

variable {strict : Bool} {len : TokenLength} {tok : CharBus}

@[simp] theorem failedDecode_err (err : ErrCode) (bad : BadMask) : (failedDecode err bad).err = err := rfl

@[simp] theorem successfulDecode_err (w : SextetBus) : (successfulDecode w).err = errNone := rfl

theorem decodeToken_err_length_iff : (decodeToken strict len tok).err = errInvalidLength ↔ len ≠ 22#8 := by
  rcases decodeToken_cases strict len tok with ⟨hlen, h⟩ | ⟨hlen, -, h⟩ | ⟨hlen, -, -, -, h⟩ | ⟨hlen, -, -, h⟩ <;> rw [h]
  · exact iff_of_true rfl hlen
  · simp [hlen, errInvalidSymbol, errInvalidLength]
  · simp [hlen, errInvalidPadding, errInvalidLength]
  · simp [hlen, errNone, errInvalidLength]

theorem decodeToken_err_symbol_iff :
    (decodeToken strict len tok).err = errInvalidSymbol ↔ len = 22#8 ∧ badLanes tok ≠ 0#22 := by
  rcases decodeToken_cases strict len tok with
    ⟨hlen, h⟩ | ⟨hlen, hbad, h⟩ | ⟨-, hbad, -, -, h⟩ | ⟨-, hbad, -, h⟩ <;> rw [h]
  · simp [hlen, errInvalidLength, errInvalidSymbol]
  · exact iff_of_true rfl ⟨hlen, hbad⟩
  · simp [hbad, errInvalidPadding, errInvalidSymbol]
  · simp [hbad, errNone, errInvalidSymbol]

theorem decodeToken_err_padding_iff :
    (decodeToken strict len tok).err = errInvalidPadding ↔
      strict = true ∧ len = 22#8 ∧ badLanes tok = 0#22 ∧ paddingBits (lookedUpSextets tok) ≠ 0#4 := by
  rcases decodeToken_cases strict len tok with
    ⟨hlen, h⟩ | ⟨-, hbad, h⟩ | ⟨hlen, hbad, hstrict, hpad, h⟩ | ⟨-, -, hpad, h⟩ <;> rw [h]
  · simp [hlen, errInvalidLength, errInvalidPadding]
  · simp [hbad, errInvalidSymbol, errInvalidPadding]
  · exact iff_of_true rfl ⟨hstrict, hlen, hbad, hpad⟩
  · exact iff_of_false (show errNone ≠ errInvalidPadding by decide) fun ⟨hstrict, _, _, hne⟩ => hne (hpad hstrict)

/-- Only InvalidSymbol records lanes, and it records the invalid ones. -/
theorem decodeToken_bad_of_err_symbol (h : (decodeToken strict len tok).err = errInvalidSymbol) :
    (decodeToken strict len tok).bad = badLanes tok := by
  obtain ⟨hlen, hbad⟩ := decodeToken_err_symbol_iff.mp h
  simp [decodeToken, hlen, hbad, failedDecode]

/-- An error code comes with no success, no identifier and no sextets (42_decode.md R120). -/
theorem decodeToken_of_err_ne (h : (decodeToken strict len tok).err ≠ errNone) :
    (decodeToken strict len tok).ok = 0#1 ∧ (decodeToken strict len tok).id = 0#128 ∧
      (decodeToken strict len tok).sex = 0#132 := by
  have hsound := decodeToken_sound strict len tok
  have hok := (bit_zero_or_one _).resolve_right (mt hsound.success_iff.mp h)
  exact ⟨hok, hsound.failure hok⟩

theorem decodeToken_success (hlen : len = 22#8) (hbad : badLanes tok = 0#22)
    (hpad : strict = false ∨ paddingBits (lookedUpSextets tok) = 0#4) :
    decodeToken strict len tok = successfulDecode (lookedUpSextets tok) := by
  rcases hpad with rfl | hpad
  · simp [decodeToken, hlen, hbad]
  · simp [decodeToken, hlen, hbad, hpad]

end Verdicts

/-! ## Strings of characters (00_scope.md R11, 30_encoding.md R79) -/

theorem dlutRead_elutRead (v : Sextet) : dlutRead (elutRead v) = ⟨1#1, v⟩ := by
  revert v; decide

theorem elutRead_dlutRead {c : Code} : (dlutRead c).valid = 1#1 → elutRead (dlutRead c).value = c := by
  revert c; decide

/-- No symbol of the alphabet has this character code. -/
def Foreign (c : Nat) : Prop := ∀ v : Sextet, (elutRead v).toNat ≠ c

/-- The string that spells these indices. -/
def spelling (idx : SymbolLane → Sextet) : List Nat := List.ofFn fun k => (elutRead (idx k)).toNat

theorem spelling_length (idx : SymbolLane → Sextet) : (spelling idx).length = 22 := List.length_ofFn

theorem spelling_getElem (idx : SymbolLane → Sextet) {n : Nat} (h : n < 22) :
    (spelling idx)[n]'((spelling_length idx).symm ▸ h) = (elutRead (idx ⟨n, h⟩)).toNat :=
  List.getElem_ofFn _

/-- A character is looked up as index `v` exactly when it is the symbol of `v`, wide characters included. -/
theorem dlutRead_presentedCode_iff {c : Nat} {v : Sextet} :
    dlutRead (presentedCode c) = ⟨1#1, v⟩ ↔ (elutRead v).toNat = c := by
  constructor
  · intro h
    by_cases hc : c ≤ 0xFF
    · have hcode : elutRead v = presentedCode c := by
        simpa [h] using elutRead_dlutRead (c := presentedCode c) (by rw [h])
      rw [hcode, presentedCode, if_pos hc, BitVec.toNat_ofNat, Nat.mod_eq_of_lt (by omega)]
    · rw [presentedCode_wide (by omega)] at h
      exact absurd h (by simp [sentinel])
  · rintro rfl
    have hle : (elutRead v).toNat ≤ 0xFF := by have := (elutRead v).isLt; omega
    rw [presentedCode, if_pos hle, BitVec.ofNat_toNat, BitVec.setWidth_eq, dlutRead_elutRead]

theorem presentedCode_valid_iff {c : Nat} : (dlutRead (presentedCode c)).valid = 1#1 ↔ ¬ Foreign c := by
  simp only [Foreign, ne_eq, not_forall, not_not, ← dlutRead_presentedCode_iff]
  exact ⟨fun h => ⟨(dlutRead (presentedCode c)).value, by rw [← h]⟩, fun ⟨v, h⟩ => by rw [h]⟩

theorem laneEntry_presentedToken {cs : List Nat} {k : SymbolLane} {c : Nat} (h : cs[k.val]? = some c) :
    laneEntry (presentedToken cs) k = dlutRead (presentedCode c) := by
  rw [laneEntry, presentedToken_lane h]

/-- The mask of a presented string marks its foreign characters. -/
theorem badLanes_presentedToken_lane {cs : List Nat} {k : SymbolLane} {c : Nat} (h : cs[k.val]? = some c) :
    maskLane (badLanes (presentedToken cs)) k = 1#1 ↔ Foreign c := by
  have hbit : ∀ b : Bit, ~~~ b = 1#1 ↔ ¬ b = 1#1 := by decide
  rw [badLanes_maskLane, laneEntry_presentedToken h, hbit, presentedCode_valid_iff, not_not]

theorem badLanes_presentedToken_ne_zero_iff {cs : List Nat} (hlen : cs.length = 22) :
    badLanes (presentedToken cs) ≠ 0#22 ↔ ∃ c ∈ cs, Foreign c := by
  simp only [ne_eq, badLanes_eq_zero_iff, not_forall, List.mem_iff_getElem?]
  constructor
  · rintro ⟨k, hk⟩
    have hget : cs[k.val]? = some cs[k.val] := List.getElem?_eq_getElem (by omega)
    rw [laneEntry_presentedToken hget, presentedCode_valid_iff, not_not] at hk
    exact ⟨cs[k.val], ⟨k.val, hget⟩, hk⟩
  · rintro ⟨c, ⟨n, hget⟩, hc⟩
    obtain ⟨hn, -⟩ := List.getElem?_eq_some_iff.mp hget
    refine ⟨⟨n, by omega⟩, ?_⟩
    rw [laneEntry_presentedToken (k := ⟨n, by omega⟩) hget, presentedCode_valid_iff, not_not]
    exact hc

/-- A string spells `idx` exactly when it has 22 characters and each is looked up as its index. -/
theorem eq_spelling_iff {cs : List Nat} {idx : SymbolLane → Sextet} :
    cs = spelling idx ↔ cs.length = 22 ∧ ∀ k, laneEntry (presentedToken cs) k = ⟨1#1, idx k⟩ := by
  have hlanes (hlen : cs.length = 22) : (∀ k, laneEntry (presentedToken cs) k = ⟨1#1, idx k⟩) ↔
      ∀ k : SymbolLane, (elutRead (idx k)).toNat = cs[k.val] :=
    forall_congr' fun k => by
      rw [laneEntry_presentedToken (List.getElem?_eq_getElem (by omega)), dlutRead_presentedCode_iff]
  constructor
  · rintro rfl
    exact ⟨spelling_length idx, (hlanes (spelling_length idx)).mpr fun k => (spelling_getElem idx k.isLt).symm⟩
  · rintro ⟨hlen, h⟩
    refine List.ext_getElem (hlen.trans (spelling_length idx).symm) fun n hn _ => ?_
    have hn' : n < 22 := hlen ▸ hn
    rw [spelling_getElem idx hn']
    exact ((hlanes hlen).mp h ⟨n, hn'⟩).symm

section Spelled

variable {cs : List Nat} {idx : SymbolLane → Sextet}

theorem badLanes_of_spelling (h : cs = spelling idx) : badLanes (presentedToken cs) = 0#22 :=
  (badLanes_eq_zero_iff _).mpr fun k => by rw [(eq_spelling_iff.mp h).2 k]

theorem lookedUpSextets_of_spelling (h : cs = spelling idx) : lookedUpSextets (presentedToken cs) = packSextets idx :=
  sextets_ext fun k => by rw [lookedUpSextets_lane, sextetLane_packSextets, (eq_spelling_iff.mp h).2 k]

/-- A string of 22 symbols of the alphabet spells the indices it is looked up as. -/
theorem spelling_of_badLanes (hlen : cs.length = 22) (hbad : badLanes (presentedToken cs) = 0#22) :
    cs = spelling fun k => (laneEntry (presentedToken cs) k).value :=
  eq_spelling_iff.mpr ⟨hlen, fun k => by rw [← (badLanes_eq_zero_iff _).mp hbad k]⟩

end Spelled

/-- The padding bits of a string that spells `idx` are the low bits of its last index (60_exceptions.md R143). -/
theorem padding_presentedToken_iff {cs : List Nat} :
    (cs.length = 22 ∧ badLanes (presentedToken cs) = 0#22 ∧
        paddingBits (lookedUpSextets (presentedToken cs)) ≠ 0#4) ↔
      ∃ idx, cs = spelling idx ∧ (idx 21).extractLsb' 0 4 ≠ 0#4 := by
  constructor
  · rintro ⟨hlen, hbad, hpad⟩
    refine ⟨_, spelling_of_badLanes hlen hbad, ?_⟩
    rwa [paddingBits_eq_lane, lookedUpSextets_lane] at hpad
  · rintro ⟨idx, h, hpad⟩
    refine ⟨(eq_spelling_iff.mp h).1, badLanes_of_spelling h, ?_⟩
    rwa [lookedUpSextets_of_spelling h, paddingBits_eq_lane, sextetLane_packSextets]

/-- An edge of DECS performs the DEC of the presented string, the encoder idle. -/
theorem step_decsLine {s : State} {cs : List Nat} {rest : List EdgeInput} (hin : s.inputs = decsLine cs :: rest) :
    step s = .next (writeDecResult
      (decodeToken s.STRICT_PADDING (saturatedLength cs.length) (presentedToken cs))
      (clearEncValid (withInputs rest s))) := by
  rw [step_of_decodeEdge hin rfl (hostDutyBroken_decsLine cs)]
  rfl

/-! ## The statements -/

/-- Settles O13: each of the lists RESET and one operation per channel is read back from its line, and what a channel
decodes is one of its own operations. -/
theorem decodingUndoesEncoding : Obligations.DecodingUndoesEncoding := by
  constructor
  · intro ops hwf
    obtain rfl | ⟨i, j, rfl, hi, hj⟩ := (edgeOpsWf_iff ops).mp hwf
    · rfl
    · rcases isEncOp_cases hi with ⟨id, rfl⟩ | rfl <;> rcases isDecOp_cases hj with ⟨len, tok, rfl⟩ | rfl <;> rfl
  · intro v ops h
    obtain ⟨d, e, -, -, ⟨-, hops⟩ | ⟨-, i, j, hops, hi, hj⟩⟩ := decodeEdge_cases h
    · exact (edgeOpsWf_iff ops).mpr (.inl hops)
    · exact (edgeOpsWf_iff ops).mpr (.inr ⟨i, j, hops, isEncOp_of_decodeEncOp hi, isDecOp_of_decodeDecOp hj⟩)

/-- Settles O15: the line decodes as the rule dispatches it, and a line that declares no token breaks no host duty. -/
theorem edgeDispatchesOnRequests : Obligations.EdgeDispatchesOnRequests := by
  intro s rest r d e id len tok hin
  rw [step_of_decodeEdge hin (decodeEdge_of_defined r d e id len tok none) rfl]
  split
  · exact runOps_singleton _ _
  · rfl

/-- Settles O16: a channel without a request decodes to its idle operation, and a DEC of another length has one verdict
for every token; so the line decodes to the same effect, and it is checked for the same host duty. -/
theorem unsampledPortsHaveNoEffect : Obligations.UnsampledPortsHaveNoEffect := by
  intro s v rest id len tok
  refine ⟨fun hidle => ?_, fun hidle => ?_, fun n hlen hn => ?_⟩
  · refine step_congr s rest (decodeEdge_sameEffect rfl rfl rfl fun d e hr hd he => ⟨?_, SameEffect.refl _ _⟩) rfl
    obtain rfl : e = 0#1 := by simpa [hr, he] using hidle
    rw [decodeEncOp_idle, decodeEncOp_idle]
  · have hidle' : performsDec v = false := by rcases hidle with h | h <;> simp [performsDec, h]
    refine step_congr s rest (decodeEdge_sameEffect rfl rfl rfl fun d e hr hd he => ⟨rfl, ?_⟩)
      ((hostDutyBroken_of_not_performsDec (by exact hidle')).trans (hostDutyBroken_of_not_performsDec hidle').symm)
    obtain rfl : d = 0#1 := by simpa [hr, hd] using hidle
    rw [decodeDecOp_idle, decodeDecOp_idle]
    exact SameEffect.refl _ _
  · refine step_congr s rest (decodeEdge_sameEffect rfl rfl rfl fun d e hr hd he => ⟨rfl, ?_⟩)
      ((hostDutyBroken_of_length_ne (by exact hlen) hn).trans (hostDutyBroken_of_length_ne hlen hn).symm)
    rcases bit_zero_or_one d with rfl | rfl
    · rw [decodeDecOp_idle, decodeDecOp_idle]
      exact SameEffect.refl _ _
    · obtain ⟨t, ht⟩ := decodeDecOp_of_length_ne (v := { v with dec_tok := tok }) e hlen hn
      obtain ⟨u, hu⟩ := decodeDecOp_of_length_ne e hlen hn
      rw [ht, hu]
      exact .runs (exec_dec_of_length_ne hn t u)

/-- Settles O18: a line that decodes has the three request bits and every sampled port defined, and decoding rejects
a line for an undefined input only. -/
theorem undefinedSampledInputIsRefused : Obligations.UndefinedSampledInputIsRefused := by
  intro s v rest hin hundef
  cases hv : decodeEdge v with
  | error why =>
    obtain ⟨p, rfl⟩ := decodeEdge_error hv
    exact ⟨p, step_of_decodeEdge_error hin hv⟩
  | ok ops =>
    exfalso
    obtain ⟨d, e, hd, he, ⟨hr, -⟩ | ⟨hr, i, j, -, hi, hj⟩⟩ := decodeEdge_cases hv
    · simp [hr, hd, he] at hundef
    · simp only [hr, hd, he, reduceCtorEq, Option.some.injEq, true_and, false_or] at hundef
      rcases hundef with ⟨rfl, hid⟩ | ⟨rfl, hlen⟩ | ⟨rfl, hlen, htok⟩
      · simp [decodeEncOp, hid] at hi
      · simp [decodeDecOp, hlen] at hj
      · simp [decodeDecOp, hlen, htok] at hj

/-- Settles O53: the edge writes the verdict of `Decode` on the presented string, whose causes are read in terms of its
own characters. -/
theorem presentedStringsGetTheirOwnVerdict : Obligations.PresentedStringsGetTheirOwnVerdict := by
  intro cs s rest hin spelled
  refine ⟨_, step_decsLine hin, rfl, ?_, ?_, ?_, decodeToken_of_err_ne, ?_, ?_, ?_⟩
  · exact decodeToken_err_length_iff.trans (not_congr (saturatedLength_eq_iff _))
  · refine decodeToken_err_symbol_iff.trans ?_
    rw [saturatedLength_eq_iff]
    exact and_congr_right badLanes_presentedToken_ne_zero_iff
  · refine decodeToken_err_padding_iff.trans (and_congr_right fun _ => ?_)
    rw [saturatedLength_eq_iff]
    exact padding_presentedToken_iff
  · intro herr k c hc
    rw [writeDecResult_D_BAD, decodeToken_bad_of_err_symbol herr]
    exact badLanes_presentedToken_lane hc
  · exact fun herr => not_not.mp (mt (decodeToken_sound _ _ _).badLanes.mp herr)
  · intro idx h hpad
    have hpad' : s.STRICT_PADDING = false ∨ paddingBits (lookedUpSextets (presentedToken cs)) = 0#4 := by
      rwa [lookedUpSextets_of_spelling h, paddingBits_eq_lane, sextetLane_packSextets]
    have hlen := (saturatedLength_eq_iff _).mpr (eq_spelling_iff.mp h).1
    simp only [writeDecResult_D_OK, writeDecResult_D_ERR, writeDecResult_D_ID, writeDecResult_D_SEX,
      decodeToken_success hlen (badLanes_of_spelling h) hpad', lookedUpSextets_of_spelling h]
    exact ⟨rfl, rfl, rfl, rfl⟩

/-- Settles O11: each of the eight lines is evaluated. -/
theorem controlWordsDecodeAsTheTableSays : Obligations.ControlWordsDecodeAsTheTableSays :=
  ⟨rfl, rfl, rfl, rfl, rfl, rfl, rfl, rfl⟩

/-- Settles O12: by evaluating the five rows on the eight control words. -/
theorem everyControlWordSelectsOneRowPerChannel : Obligations.EveryControlWordSelectsOneRowPerChannel := by
  unfold Obligations.EveryControlWordSelectsOneRowPerChannel
  decide

/-- Settles O14: a step runs the decoded operations, one by `exec` alone and two by one `exec` after the other. -/
theorem stepRunsTheDecodedOperations : Obligations.StepRunsTheDecodedOperations := by
  intro s v rest ops hin hops hduty
  have hstep := step_of_decodeEdge hin hops hduty
  refine ⟨hstep, ?_, ?_⟩
  · rintro i rfl
    exact hstep.trans (runOps_singleton i _)
  · rintro e d t rfl hexec
    exact hstep.trans (runOps_pair d hexec)

/-- Settles O17: the widths of the operands are in their types, and each of the five operations answers a next state. -/
theorem noOperationIsRefused : Obligations.NoOperationIsRefused :=
  fun i s => ⟨by cases i <;> rfl, exec_completes i s⟩

end Sys2Proof.Proofs

/-! # The tables family (40_tables.md): lemmas and the statements they settle -/

namespace Sys2Proof.Proofs

open Sys2Proof.Machine Sys2Proof.Laws

/-! ## The tables entry by entry (40_tables.md R90, R91) -/

theorem elutRead_eq_closedForm (v : Sextet) : elutRead v = elutClosedForm v := by
  revert v; decide

theorem dlutRead_eq_closedForm (c : Code) : dlutRead c = dlutClosedForm c := by
  revert c; decide

/-- An entry of DLUT is valid or it is the sentinel: an invalid entry holds no value. -/
theorem dlutRead_valid_or_sentinel (c : Code) : (dlutRead c).valid = 1#1 ∨ dlutRead c = sentinel := by
  rw [dlutRead_eq_closedForm, dlutClosedForm]
  split_ifs
  case neg => exact .inr rfl
  all_goals exact .inl rfl

/-! ## DLUT is the inverse of ELUT (40_tables.md R92) -/

theorem elutRead_injective : Function.Injective elutRead := fun v w h => by
  have hentry : (⟨1#1, v⟩ : DlutEntry) = ⟨1#1, w⟩ := by rw [← dlutRead_elutRead, h, dlutRead_elutRead]
  exact congrArg DlutEntry.value hentry

/-- The accepted codes are those of the alphabet (40_tables.md R95). -/
theorem dlutRead_valid_iff {c : Code} : (dlutRead c).valid = 1#1 ↔ ∃ v, elutRead v = c := by
  constructor
  · exact fun h => ⟨(dlutRead c).value, elutRead_dlutRead h⟩
  · rintro ⟨v, rfl⟩
    rw [dlutRead_elutRead]

theorem dlutRead_eq_sentinel_iff {c : Code} : dlutRead c = sentinel ↔ ∀ v, elutRead v ≠ c := by
  constructor
  · rintro h v rfl
    exact absurd ((dlutRead_elutRead v).symm.trans h) (by simp [sentinel])
  · intro h
    exact (dlutRead_valid_or_sentinel c).resolve_left fun hvalid => by
      obtain ⟨v, hv⟩ := dlutRead_valid_iff.mp hvalid
      exact h v hv

/-- '+', '/' and '=', the characters of other Base64 alphabets, are looked up as the sentinel. -/
theorem dlutRead_standardBase64 :
    dlutRead 0x2B#8 = sentinel ∧ dlutRead 0x2F#8 = sentinel ∧ dlutRead 0x3D#8 = sentinel :=
  ⟨rfl, rfl, rfl⟩

/-! ## The size of DLUT and how many of its entries are valid, added up over the grid's rows -/

theorem dlutRom_length : dlutRom.length = 256 := by
  simp only [dlutRom, List.length_append]
  rfl

theorem dlutRom_valid_count : (dlutRom.filter fun e => e.valid == 1#1).length = 64 := by
  simp only [dlutRom, List.filter_append, List.length_append]
  rfl

theorem dlutRom_invalid_count : (dlutRom.filter fun e => e.valid == 0#1).length = 192 := by
  simp only [dlutRom, List.filter_append, List.length_append]
  rfl

/-! ## The two ranges of letters (40_tables.md R95) -/

theorem dlutRead_upperCase (n : Fin 26) :
    dlutRead (BitVec.ofNat 8 (0x41 + n.val)) = ⟨1#1, BitVec.ofNat 6 n.val⟩ := by
  have hcode : (BitVec.ofNat 8 (0x41 + n.val)).toNat = 0x41 + n.val := Nat.mod_eq_of_lt (by omega)
  simp only [dlutRead_eq_closedForm, dlutClosedForm, hcode]
  rw [if_pos (by omega), Nat.add_sub_cancel_left, symbolEntry]

theorem dlutRead_lowerCase (n : Fin 26) :
    dlutRead (BitVec.ofNat 8 (0x61 + n.val)) = ⟨1#1, BitVec.ofNat 6 (26 + n.val)⟩ := by
  have hcode : (BitVec.ofNat 8 (0x61 + n.val)).toNat = 0x61 + n.val := Nat.mod_eq_of_lt (by omega)
  simp only [dlutRead_eq_closedForm, dlutClosedForm, hcode]
  rw [if_neg (by omega), if_pos (by omega), Nat.add_sub_cancel_left, Nat.add_comm n.val, symbolEntry]

/-! ## The statements -/

/-- Settles O19: the 64 entries are compared with the closed form one by one. -/
theorem elutHoldsTheAlphabet : Obligations.ElutHoldsTheAlphabet :=
  ⟨rfl, elutRead_eq_closedForm⟩

/-- Settles O20: an entry holds the index of its code, and a code without an index has the sentinel. -/
theorem dlutHoldsIndexOrSentinel : Obligations.DlutHoldsIndexOrSentinel :=
  ⟨dlutRom_length, dlutRead_elutRead, fun _ => dlutRead_eq_sentinel_iff.mpr, dlutRom_valid_count,
    dlutRom_invalid_count, dlutRead_eq_closedForm⟩

/-- Settles O21: a code of the alphabet has a valid entry, so a code with the sentinel is none of the 64. -/
theorem tablesAreInverse : Obligations.TablesAreInverse := by
  obtain ⟨hplus, hslash, hequals⟩ := dlutRead_standardBase64
  exact ⟨dlutRead_elutRead, fun _ => elutRead_dlutRead, fun _ _ h => elutRead_injective h,
    fun v => ⟨dlutRead_eq_sentinel_iff.mp hplus v, dlutRead_eq_sentinel_iff.mp hslash v,
      dlutRead_eq_sentinel_iff.mp hequals v⟩,
    hplus, hslash, hequals⟩

/-- Settles O22: the ranges of letters are looked up 26 indices apart, and only codes of the alphabet are valid. -/
theorem decodingIsCaseSensitive : Obligations.DecodingIsCaseSensitive := by
  obtain ⟨hplus, hslash, hequals⟩ := dlutRead_standardBase64
  refine ⟨fun n => ⟨dlutRead_upperCase n, dlutRead_lowerCase n, ?_⟩, fun _ => dlutRead_valid_iff,
    congrArg DlutEntry.valid hplus, congrArg DlutEntry.valid hslash, congrArg DlutEntry.valid hequals⟩
  rw [dlutRead_upperCase, dlutRead_lowerCase]
  intro h
  have hindex : n.val % 64 = (26 + n.val) % 64 := congrArg BitVec.toNat h
  omega

end Sys2Proof.Proofs

/-! # The encoder family (41_encode.md): lemmas and the statements they settle -/

namespace Sys2Proof.Proofs

open Sys2Proof.Machine Sys2Proof.Laws

/-! ## Windows of bits -/

/-- The library has this for an inner slice that starts at bit 0. -/
theorem extract_extract {n : Nat} (x : BitVec n) (inner : Nat) {width start len : Nat} (h : start + len ≤ width) :
    (x.extractLsb' inner width).extractLsb' start len = x.extractLsb' (inner + start) len := by
  apply BitVec.eq_of_getLsbD_eq
  intro i hi
  have hin : start + i < width := by omega
  simp only [BitVec.getLsbD_extractLsb', hi, hin, decide_true, Bool.true_and, Nat.add_assoc]

/-- The window of three successive bytes cuts their 24 bits into four successive sextets; the two in the middle are
joined from the parts of two bytes. -/
theorem windowSextet_extract {n : Nat} (x : BitVec n) (base : Nat) (p : Fin 4) :
    windowSextet (x.extractLsb' (base + 16) 8) (x.extractLsb' (base + 8) 8) (x.extractLsb' base 8) p =
      x.extractLsb' (base + (18 - 6 * p.val)) 6 := by
  match p with
  | 0 => exact extract_extract x (base + 16) (by decide)
  | 1 =>
    rw [windowSextet, extract_extract _ _ (by decide), extract_extract _ _ (by decide)]
    exact BitVec.extractLsb'_append_extractLsb'_eq_extractLsb' rfl
  | 2 =>
    rw [windowSextet, extract_extract _ _ (by decide), extract_extract _ _ (by decide)]
    exact BitVec.extractLsb'_append_extractLsb'_eq_extractLsb' rfl
  | 3 => exact extract_extract x base (by decide)

/-! ## The lanes of `W = {id, 0^4}` in terms of the identifier and its bytes (41_encode.md R103) -/

/-- A slice of `W` above the padding is a slice of the identifier. -/
theorem padded_extract (id : Identifier) {start : Nat} (len : Nat) (h : 4 ≤ start) :
    (paddedIdentifier id).extractLsb' start len = id.extractLsb' (start - 4) len :=
  BitVec.extractLsb'_append_eq_of_le h

/-- The bytes of window w are slices of its 24 bits, which start at bit 104-24w. -/
theorem byteLane_window (id : Identifier) {w i : Nat} (hw : w < 5) (hi : i < 3) :
    byteLane id (Fin.ofNat 16 (3 * w + i)) = id.extractLsb' (104 - 24 * w + (16 - 8 * i)) 8 := by
  have hlane : (Fin.ofNat 16 (3 * w + i)).val = 3 * w + i := Nat.mod_eq_of_lt (by omega)
  have hstart : 120 - 8 * (3 * w + i) = 104 - 24 * w + (16 - 8 * i) := by omega
  rw [byteLane, hlane, hstart]

theorem padded_lane_of_window (id : Identifier) {w : Nat} (hw : w < 5) (p : Fin 4) :
    sextetLane (paddedIdentifier id) (Fin.ofNat 22 (4 * w + p.val)) =
      windowSextet (byteLane id (Fin.ofNat 16 (3 * w))) (byteLane id (Fin.ofNat 16 (3 * w + 1)))
        (byteLane id (Fin.ofNat 16 (3 * w + 2))) p := by
  have h0 : byteLane id (Fin.ofNat 16 (3 * w)) = id.extractLsb' (104 - 24 * w + 16) 8 :=
    byteLane_window id (i := 0) hw (by decide)
  have h1 : byteLane id (Fin.ofNat 16 (3 * w + 1)) = id.extractLsb' (104 - 24 * w + 8) 8 :=
    byteLane_window id hw (by decide)
  have h2 : byteLane id (Fin.ofNat 16 (3 * w + 2)) = id.extractLsb' (104 - 24 * w) 8 :=
    byteLane_window id hw (by decide)
  have hlane : (Fin.ofNat 22 (4 * w + p.val)).val = 4 * w + p.val := Nat.mod_eq_of_lt (by omega)
  have hstart : 126 - 6 * (4 * w + p.val) - 4 = 104 - 24 * w + (18 - 6 * p.val) := by omega
  rw [h0, h1, h2, windowSextet_extract, sextetLane, hlane, padded_extract _ _ (by omega), hstart]

theorem padded_lane20 (id : Identifier) : sextetLane (paddedIdentifier id) 20 = (byteLane id 15).extractLsb' 2 6 := by
  rw [byteLane, extract_extract _ _ (by decide)]
  exact padded_extract id 6 (by decide)

theorem padded_lane21_high (id : Identifier) :
    (sextetLane (paddedIdentifier id) 21).extractLsb' 4 2 = id.extractLsb' 0 2 :=
  (extract_extract _ 0 (by decide)).trans (padded_extract id 2 (by decide))

/-- Lane 21 is its high bits, which end the identifier, beside the padding. -/
theorem padded_lane21 (id : Identifier) :
    sextetLane (paddedIdentifier id) 21 = (byteLane id 15).extractLsb' 0 2 ++ 0#4 := by
  have hbyte : (byteLane id 15).extractLsb' 0 2 = id.extractLsb' 0 2 := extract_extract id 0 (by decide)
  rw [hbyte, ← padded_lane21_high, ← paddingBits_padded id, paddingBits_eq_lane,
    BitVec.extractLsb'_append_extractLsb'_eq_extractLsb' (by decide)]
  exact BitVec.extractLsb'_eq_self.symm

theorem padded_lane_eq_encodeWindowSextet (id : Identifier) (k : SymbolLane) :
    sextetLane (paddedIdentifier id) k = encodeWindowSextet id k := by
  unfold encodeWindowSextet
  split_ifs with h20 h21
  · obtain rfl : k = 20 := Fin.ext h20
    exact padded_lane20 id
  · obtain rfl : k = 21 := Fin.ext h21
    exact padded_lane21 id
  · have hk : k = Fin.ofNat 22 (4 * (k.val / 4) + (Fin.ofNat 4 k.val).val) := by
      apply Fin.ext
      simp only [Fin.ofNat]
      omega
    exact (congrArg _ hk).trans (padded_lane_of_window id (by omega) _)

/-! ## The characters of the token (41_encode.md R105) -/

theorem elutRead_ne_standardBase64 (v : Sextet) :
    elutRead v ≠ 0x2B#8 ∧ elutRead v ≠ 0x2F#8 ∧ elutRead v ≠ 0x3D#8 := by
  obtain ⟨-, -, -, hforeign, -⟩ := tablesAreInverse
  exact hforeign v

theorem paddedIdentifier_injective : Function.Injective paddedIdentifier := fun x y h => by
  rw [← payloadBits_padded x, h, payloadBits_padded]

/-- ELUT tells the sextets of every lane apart, so equal tokens come of equal `W`. -/
theorem encodeId_chr_injective : Function.Injective fun id => (encodeId id).chr := fun x y h => by
  refine paddedIdentifier_injective (sextets_ext fun k => elutRead_injective ?_)
  rw [← encodeId_symbolLane, ← encodeId_symbolLane]
  exact congrArg (symbolLane · k) h

/-! ## The statements -/

/-- Settles O23: the sextets joined give `W` back, and a lane of the joined characters is what was put there. -/
theorem encodeSlicesThePaddedIdentifier : Obligations.EncodeSlicesThePaddedIdentifier :=
  fun id => ⟨encodeId_sextets id, encodeId_symbolLane id⟩

/-- Settles O24: the lanes of `W` are those of the five windows of three bytes and the two of byte 15. -/
theorem encodeAgreesWithTheWindowForm : Obligations.EncodeAgreesWithTheWindowForm := by
  unfold Obligations.EncodeAgreesWithTheWindowForm
  simp only [encodeId_sextets]
  exact ⟨padded_lane_eq_encodeWindowSextet, fun id w =>
    ⟨padded_lane_of_window id w.isLt 0, padded_lane_of_window id w.isLt 1, padded_lane_of_window id w.isLt 2,
      padded_lane_of_window id w.isLt 3, padded_lane20 id, padded_lane21 id⟩⟩

/-- Settles O25: the sextets are `W`, whose padding and payload are known, and ELUT holds no '='. -/
theorem encodePaddingIsFixed : Obligations.EncodePaddingIsFixed := by
  intro id
  simp only [encodeId_sextets, encodeId_symbolLane]
  exact ⟨paddingBits_padded id, payloadBits_padded id, padded_lane21_high id,
    fun _ => (elutRead_ne_standardBase64 _).2.2⟩

/-- Settles O26: every lane is an entry of ELUT, and ELUT and the padding are injective. -/
theorem encodeStaysInTheAlphabetAndIsInjective : Obligations.EncodeStaysInTheAlphabetAndIsInjective := by
  refine ⟨fun id k => ?_, fun id => ?_, fun x y h => encodeId_chr_injective h⟩
  · rw [encodeId_symbolLane]
    exact ⟨⟨_, rfl⟩, elutRead_ne_standardBase64 _⟩
  · rw [encodeId_sextets]
    exact payloadBits_padded id

/-- Settles O27: both lanes k are functions of the slice of `W` that R108 names. -/
theorem encodeLanesAreIndependent : Obligations.EncodeLanesAreIndependent := by
  refine ⟨fun id k => ?_, fun x y k h => ?_⟩
  · rw [encodeId_symbolLane, encodeId_sextets]
  · simp only [encodeId_symbolLane, encodeId_sextets]
    exact ⟨h, congrArg elutRead h⟩

/-- Settles O28: this is what `writeEncResult` writes. -/
theorem encWritesTheEncoding : Obligations.EncWritesTheEncoding :=
  fun _ _ => rfl

/-- Settles O29: this is what `clearEncValid` writes. -/
theorem encIdleClearsOnlyTheValidFlag : Obligations.EncIdleClearsOnlyTheValidFlag :=
  fun _ => rfl

/-- Settles O30: the next state of ENC and that of ENC_IDLE differ from `s` in the encoder's registers only. -/
theorem encoderOperationsFrame : Obligations.EncoderOperationsFrame := by
  intro i s t hi hexec
  rcases isEncOp_cases hi with ⟨id, rfl⟩ | rfl
  · obtain rfl := Host.Outcome.next.inj ((encWritesTheEncoding id s).symm.trans hexec)
    exact ⟨⟨rfl, rfl, rfl, rfl, rfl, rfl, rfl, rfl⟩, nofun⟩
  · obtain rfl := Host.Outcome.next.inj ((encIdleClearsOnlyTheValidFlag s).symm.trans hexec)
    exact ⟨⟨rfl, rfl, rfl, rfl, rfl, rfl, rfl, rfl⟩, fun _ => ⟨rfl, rfl⟩⟩

end Sys2Proof.Proofs

/-! # The decoder family (42_decode.md): lemmas and the statements they settle -/

namespace Sys2Proof.Proofs

open Sys2Proof.Machine Sys2Proof.Laws

/-! ## The characters of a sextet bus -/

/-- The token whose lane k is the symbol of sextet k. `Encode` answers the characters of `{id, 0^4}`
(41_encode.md R102). -/
def charsOf (w : SextetBus) : CharBus := packChars fun k => elutRead (sextetLane w k)

theorem encodeId_chr (x : Identifier) : (encodeId x).chr = charsOf (paddedIdentifier x) := rfl

@[simp] theorem charsOf_lane (w : SextetBus) (k : SymbolLane) :
    symbolLane (charsOf w) k = elutRead (sextetLane w k) :=
  symbolLane_packChars _ k

@[simp] theorem laneEntry_charsOf (w : SextetBus) (k : SymbolLane) :
    laneEntry (charsOf w) k = ⟨1#1, sextetLane w k⟩ := by
  rw [laneEntry, charsOf_lane, dlutRead_elutRead]

@[simp] theorem badLanes_charsOf (w : SextetBus) : badLanes (charsOf w) = 0#22 :=
  (badLanes_eq_zero_iff _).mpr fun k => by rw [laneEntry_charsOf]

@[simp] theorem lookedUpSextets_charsOf (w : SextetBus) : lookedUpSextets (charsOf w) = w :=
  sextets_ext fun k => by rw [lookedUpSextets_lane, laneEntry_charsOf]

theorem charsOf_injective : Function.Injective charsOf :=
  Function.LeftInverse.injective lookedUpSextets_charsOf

/-- A token of valid lanes is the characters of the sextets it is looked up as. -/
theorem charsOf_lookedUpSextets {t : CharBus} (hbad : badLanes t = 0#22) : charsOf (lookedUpSextets t) = t :=
  chars_ext fun k => by
    rw [charsOf_lane, lookedUpSextets_lane]
    exact elutRead_dlutRead ((badLanes_eq_zero_iff t).mp hbad k)

theorem badLanes_eq_zero_iff_alphabet {t : CharBus} :
    badLanes t = 0#22 ↔ ∀ k, ∃ v : Sextet, symbolLane t k = elutRead v := by
  rw [badLanes_eq_zero_iff]
  exact forall_congr' fun k => dlutRead_valid_iff.trans (exists_congr fun v => eq_comm)

/-! ## Payload and padding of a sextet bus -/

theorem paddedIdentifier_payloadBits {w : SextetBus} (hpad : paddingBits w = 0#4) :
    paddedIdentifier (payloadBits w) = w := by
  rw [paddedIdentifier, ← hpad]
  exact payload_append_padding w

theorem sextetLane21_high (w : SextetBus) : (sextetLane w 21).extractLsb' 4 2 = w.extractLsb' 4 2 :=
  extract_extract w 0 (by decide)

/-- Replacing the padding by zeros changes lane 21 only, and of it the low bits. -/
theorem padded_payload_lane (w : SextetBus) (k : SymbolLane) :
    sextetLane (paddedIdentifier (payloadBits w)) k =
      if k = 21 then (sextetLane w 21).extractLsb' 4 2 ++ 0#4 else sextetLane w k := by
  split_ifs with h21
  · have hbyte : (byteLane (payloadBits w) 15).extractLsb' 0 2 = w.extractLsb' 4 2 :=
      (extract_extract (payloadBits w) 0 (by decide)).trans (extract_extract w 4 (by decide))
    rw [h21, padded_lane21, hbyte, sextetLane21_high]
  · have hne : k.val ≠ 21 := fun h => h21 (Fin.ext h)
    have hstart : 4 + (126 - 6 * k.val - 4) = 126 - 6 * k.val := by omega
    rw [sextetLane, padded_extract _ _ (by omega), payloadBits, extract_extract _ _ (by omega), hstart, sextetLane]

/-! ## The failed verdicts (42_decode.md R122), beside `decodeToken_success` -/

section FailedVerdicts

variable {strict : Bool} {len : TokenLength} {tok : CharBus}

theorem decodeToken_length_ne (hlen : len ≠ 22#8) :
    decodeToken strict len tok = failedDecode errInvalidLength 0#22 := by
  simp [decodeToken, hlen]

theorem decodeToken_invalid_lane (hlen : len = 22#8) (hbad : badLanes tok ≠ 0#22) :
    decodeToken strict len tok = failedDecode errInvalidSymbol (badLanes tok) := by
  simp [decodeToken, hlen, hbad]

theorem decodeToken_invalid_padding (hlen : len = 22#8) (hbad : badLanes tok = 0#22) (hstrict : strict = true)
    (hpad : paddingBits (lookedUpSextets tok) ≠ 0#4) :
    decodeToken strict len tok = failedDecode errInvalidPadding 0#22 := by
  simp [decodeToken, hlen, hbad, hstrict, hpad]

end FailedVerdicts

/-! ## Which tokens of 22 characters are accepted (42_decode.md R126) -/

theorem decodeToken_charsOf {strict : Bool} {w : SextetBus} (hpad : strict = true → paddingBits w = 0#4) :
    decodeToken strict 22#8 (charsOf w) = successfulDecode w := by
  have hcase : strict = false ∨ paddingBits (lookedUpSextets (charsOf w)) = 0#4 := by
    rw [lookedUpSextets_charsOf]
    cases strict with
    | false => exact .inl rfl
    | true => exact .inr (hpad rfl)
  rw [decodeToken_success rfl (badLanes_charsOf w) hcase, lookedUpSextets_charsOf]

theorem decodeToken_lenient_charsOf (w : SextetBus) : decodeToken false 22#8 (charsOf w) = successfulDecode w :=
  decodeToken_charsOf nofun

/-- The accepted tokens are the characters of the sextet buses whose padding the parameter allows. -/
theorem decodeToken_ok_iff {strict : Bool} {t : CharBus} :
    (decodeToken strict 22#8 t).ok = 1#1 ↔ ∃ w, charsOf w = t ∧ (strict = true → paddingBits w = 0#4) := by
  constructor
  · intro hok
    rcases decodeToken_cases strict 22#8 t with ⟨hlen, -⟩ | ⟨-, -, h⟩ | ⟨-, -, -, -, h⟩ | ⟨-, hbad, hpad, -⟩
    · exact absurd rfl hlen
    · simp [h, failedDecode] at hok
    · simp [h, failedDecode] at hok
    · exact ⟨lookedUpSextets t, charsOf_lookedUpSextets hbad, hpad⟩
  · rintro ⟨w, rfl, hpad⟩
    rw [decodeToken_charsOf hpad, successfulDecode]

theorem decodeToken_strict_ok_iff {t : CharBus} :
    (decodeToken true 22#8 t).ok = 1#1 ↔ ∃ x : Identifier, (encodeId x).chr = t := by
  rw [decodeToken_ok_iff]
  constructor
  · rintro ⟨w, rfl, hpad⟩
    exact ⟨payloadBits w, by rw [encodeId_chr, paddedIdentifier_payloadBits (hpad rfl)]⟩
  · rintro ⟨x, rfl⟩
    exact ⟨paddedIdentifier x, rfl, fun _ => paddingBits_padded x⟩

theorem decodeToken_lenient_ok_iff {t : CharBus} :
    (decodeToken false 22#8 t).ok = 1#1 ↔ ∃ w, charsOf w = t := by
  simp [decodeToken_ok_iff]

/-- The tokens accepted for `x` are told apart by their padding bits alone. -/
theorem decodeToken_lenient_id_iff {t : CharBus} {x : Identifier} :
    (decodeToken false 22#8 t).ok = 1#1 ∧ (decodeToken false 22#8 t).id = x ↔
      ∃ p : BitVec 4, charsOf (x ++ p) = t := by
  constructor
  · rintro ⟨hok, rfl⟩
    obtain ⟨w, rfl⟩ := decodeToken_lenient_ok_iff.mp hok
    refine ⟨paddingBits w, ?_⟩
    rw [decodeToken_lenient_charsOf, successfulDecode]
    exact congrArg charsOf (payload_append_padding w)
  · rintro ⟨p, rfl⟩
    rw [decodeToken_lenient_charsOf]
    exact ⟨rfl, payloadBits_append x p⟩

theorem append_padding_injective (x : Identifier) : Function.Injective fun p : BitVec 4 => (x ++ p : SextetBus) :=
  Function.LeftInverse.injective (paddingBits_append x)

/-- What the values of `n` bits list, each once, has 2^n members. -/
theorem card_of_bitVec_range {α : Type} {p : α → Prop} {n : Nat} {f : BitVec n → α} (hf : Function.Injective f)
    (hp : ∀ a, p a ↔ ∃ x, f x = a) : Nat.card { a // p a } = 2 ^ n := by
  calc Nat.card { a // p a }
    _ = Nat.card (Set.range f) := Nat.card_congr (Equiv.subtypeEquivRight hp)
    _ = Nat.card (BitVec n) := Nat.card_range_of_injective hf
    _ = 2 ^ n := by rw [Nat.card_congr BitVec.equivFin.toEquiv, Nat.card_fin]

theorem elutRead_zero_padding (p : BitVec 2) :
    elutRead (p ++ 0#4) = 0x41#8 ∨ elutRead (p ++ 0#4) = 0x51#8 ∨ elutRead (p ++ 0#4) = 0x67#8 ∨
      elutRead (p ++ 0#4) = 0x77#8 := by
  revert p; decide

/-! ## The verdict on 22 characters lane by lane (42_decode.md R123) -/

/-- With 22 characters `bad` is the mask of the invalid lanes, whatever the verdict. -/
theorem decodeToken_bad (strict : Bool) (tok : CharBus) : (decodeToken strict 22#8 tok).bad = badLanes tok := by
  rcases decodeToken_cases strict 22#8 tok with ⟨hlen, -⟩ | ⟨-, -, h⟩ | ⟨-, hbad, -, -, h⟩ | ⟨-, hbad, -, h⟩
  · exact absurd rfl hlen
  · rw [h, failedDecode]
  · rw [h, hbad, failedDecode]
  · rw [h, hbad, successfulDecode]

theorem decodeToken_bad_lane (strict : Bool) (tok : CharBus) (k : SymbolLane) :
    (decodeToken strict 22#8 tok).bad.extractLsb' (21 - k.val) 1 = ~~~ (laneEntry tok k).valid := by
  rw [decodeToken_bad]
  exact badLanes_maskLane tok k

theorem badLanes_ne_zero_iff {tok : CharBus} : badLanes tok ≠ 0#22 ↔ ∃ k, (laneEntry tok k).valid = 0#1 := by
  have hbit : ∀ b : Bit, ¬ b = 1#1 ↔ b = 0#1 := by decide
  simp only [ne_eq, badLanes_eq_zero_iff, not_forall, hbit]

/-! ## The bytes of the payload in the window form (42_decode.md R124) -/

/-- The window of four successive sextets cuts their 24 bits into three successive bytes. -/
theorem windowByte_extract {n : Nat} (x : BitVec n) (base : Nat) (p : Fin 3) :
    windowByte (x.extractLsb' (base + 18) 6) (x.extractLsb' (base + 12) 6) (x.extractLsb' (base + 6) 6)
      (x.extractLsb' base 6) p = x.extractLsb' (base + (16 - 8 * p.val)) 8 := by
  match p with
  | 0 | 1 | 2 =>
    simp (disch := decide) only [windowByte, extract_extract]
    exact BitVec.extractLsb'_append_extractLsb'_eq_extractLsb' rfl

/-- A byte of the payload is a slice of `W`. -/
theorem byteLane_payloadBits (w : SextetBus) (j : ByteLane) :
    byteLane (payloadBits w) j = w.extractLsb' (4 + (120 - 8 * j.val)) 8 :=
  extract_extract w 4 (by omega)

/-- The sextets of window i are slices of its 24 bits, which start at bit 108-24i. -/
theorem sextetLane_window (w : SextetBus) {i q : Nat} (hi : i < 5) (hq : q < 4) :
    sextetLane w (Fin.ofNat 22 (4 * i + q)) = w.extractLsb' (108 - 24 * i + (18 - 6 * q)) 6 := by
  have hlane : (Fin.ofNat 22 (4 * i + q)).val = 4 * i + q := Nat.mod_eq_of_lt (by omega)
  have hstart : 126 - 6 * (4 * i + q) = 108 - 24 * i + (18 - 6 * q) := by omega
  rw [sextetLane, hlane, hstart]

theorem payload_byte_of_window (w : SextetBus) {i : Nat} (hi : i < 5) (p : Fin 3) :
    byteLane (payloadBits w) (Fin.ofNat 16 (3 * i + p.val)) =
      windowByte (sextetLane w (Fin.ofNat 22 (4 * i))) (sextetLane w (Fin.ofNat 22 (4 * i + 1)))
        (sextetLane w (Fin.ofNat 22 (4 * i + 2))) (sextetLane w (Fin.ofNat 22 (4 * i + 3))) p := by
  have h0 : sextetLane w (Fin.ofNat 22 (4 * i)) = w.extractLsb' (108 - 24 * i + 18) 6 :=
    sextetLane_window w (q := 0) hi (by decide)
  have h1 : sextetLane w (Fin.ofNat 22 (4 * i + 1)) = w.extractLsb' (108 - 24 * i + 12) 6 :=
    sextetLane_window w hi (by decide)
  have h2 : sextetLane w (Fin.ofNat 22 (4 * i + 2)) = w.extractLsb' (108 - 24 * i + 6) 6 :=
    sextetLane_window w hi (by decide)
  have h3 : sextetLane w (Fin.ofNat 22 (4 * i + 3)) = w.extractLsb' (108 - 24 * i) 6 :=
    sextetLane_window w hi (by decide)
  have hlane : (Fin.ofNat 16 (3 * i + p.val)).val = 3 * i + p.val := Nat.mod_eq_of_lt (by omega)
  have hstart : 4 + (120 - 8 * (3 * i + p.val)) = 108 - 24 * i + (16 - 8 * p.val) := by omega
  rw [h0, h1, h2, h3, windowByte_extract, byteLane_payloadBits, hlane, hstart]

theorem payload_byte15 (w : SextetBus) :
    byteLane (payloadBits w) 15 = sextetLane w 20 ++ (sextetLane w 21).extractLsb' 4 2 := by
  have hjoin : (sextetLane w 20 ++ w.extractLsb' 4 2 : Byte) = w.extractLsb' 4 8 :=
    BitVec.extractLsb'_append_extractLsb'_eq_extractLsb' rfl
  rw [sextetLane21_high]
  exact (byteLane_payloadBits w 15).trans hjoin.symm

theorem payload_byte_eq_decodeWindowByte (w : SextetBus) (j : ByteLane) :
    byteLane (payloadBits w) j = decodeWindowByte w j := by
  unfold decodeWindowByte
  split_ifs with h15
  · obtain rfl : j = 15 := Fin.ext h15
    exact payload_byte15 w
  · have hj : j = Fin.ofNat 16 (3 * (j.val / 3) + (Fin.ofNat 3 j.val).val) := by
      apply Fin.ext
      simp only [Fin.ofNat]
      omega
    exact (congrArg _ hj).trans (payload_byte_of_window w (by omega) _)

/-! ## The statements -/

/-- Settles O34: the token is the characters of `{x, 0^4}`, whose padding is zero and whose payload is `x`. -/
theorem decodeUndoesEncode : Obligations.DecodeUndoesEncode := by
  intro strict x
  rw [encodeId_chr, decodeToken_charsOf fun _ => paddingBits_padded x, successfulDecode, payloadBits_padded,
    encodeId_sextets, errNone]

/-- Settles O35: the accepted tokens are the values of the injective `Encode`, and the last symbol of an encoding has
four zero padding bits. -/
theorem strictDecodeAcceptsExactlyTheEncodings : Obligations.StrictDecodeAcceptsExactlyTheEncodings := by
  have hid (x : Identifier) : (decodeToken true 22#8 (encodeId x).chr).id = x := by rw [decodeUndoesEncode]
  refine ⟨fun t => ?_, ?_, fun x => ⟨(encodeId x).chr, ⟨?_, hid x⟩, ?_⟩, ?_, fun t hok => ?_⟩
  · exact decodeToken_strict_ok_iff.trans (exists_congr fun x => eq_comm)
  · rintro t x rfl
    exact hid x
  · exact decodeToken_strict_ok_iff.mpr ⟨x, rfl⟩
  · rintro t ⟨hok, hx⟩
    obtain ⟨y, rfl⟩ := decodeToken_strict_ok_iff.mp hok
    rw [← hx, hid]
  · exact card_of_bitVec_range encodeId_chr_injective fun t => decodeToken_strict_ok_iff
  · obtain ⟨x, rfl⟩ := decodeToken_strict_ok_iff.mp hok
    rw [encodeId_symbolLane, padded_lane21]
    exact elutRead_zero_padding _

/-- Settles O36: the accepted tokens are the characters of all sextet buses; those of one identifier are listed by
their padding bits, and encoding it clears them. -/
theorem lenientDecodeIgnoresThePadding : Obligations.LenientDecodeIgnoresThePadding := by
  refine ⟨fun t => ?_, ?_, fun x => ?_, fun t hok k => ?_⟩
  · rw [decodeToken_lenient_ok_iff, ← badLanes_eq_zero_iff_alphabet]
    exact ⟨fun ⟨w, hw⟩ => hw ▸ badLanes_charsOf w, fun hbad => ⟨_, charsOf_lookedUpSextets hbad⟩⟩
  · exact card_of_bitVec_range charsOf_injective fun t => decodeToken_lenient_ok_iff
  · exact card_of_bitVec_range (charsOf_injective.comp (append_padding_injective x)) fun t =>
      decodeToken_lenient_id_iff
  · obtain ⟨w, rfl⟩ := decodeToken_lenient_ok_iff.mp hok
    rw [decodeToken_lenient_charsOf, encodeId_symbolLane, successfulDecode, padded_payload_lane, charsOf_lane,
      charsOf_lane, dlutRead_elutRead, apply_ite elutRead]

/-- Settles O31: the four answers of `Decode`, with the conditions on the mask read lane by lane. -/
theorem decodeFollowsItsFourCases : Obligations.DecodeFollowsItsFourCases := by
  intro strict len tok v W
  have hbad : (∀ k, v k = 1#1) → badLanes tok = 0#22 := (badLanes_eq_zero_iff tok).mpr
  exact ⟨decodeToken_length_ne, fun hlen hinvalid => decodeToken_invalid_lane hlen (badLanes_ne_zero_iff.mpr hinvalid),
    fun hlen hvalid => decodeToken_invalid_padding hlen (hbad hvalid),
    fun hlen hvalid => decodeToken_success hlen (hbad hvalid)⟩

/-- Settles O32: the mask holds the negated valid bit of each lane, and with an invalid lane the answer is a function
of the mask. -/
theorem everyInvalidLaneIsMarked : Obligations.EveryInvalidLaneIsMarked := by
  refine ⟨fun strict tok k => ?_, fun strict t u k h => ?_, fun strict t u hvalid hinvalid => ?_⟩
  · have hbit : ∀ b : Bit, ~~~ b = 1#1 ↔ b = 0#1 := by decide
    rw [decodeToken_bad_lane]
    exact hbit _
  · rw [decodeToken_bad_lane, decodeToken_bad_lane, laneEntry, laneEntry, h]
  · have hmask : badLanes t = badLanes u := mask_ext fun k => by
      rw [badLanes_maskLane, badLanes_maskLane]
      exact congrArg (~~~ ·) (hvalid k)
    have hbad : badLanes t ≠ 0#22 := badLanes_ne_zero_iff.mpr hinvalid
    rw [decodeToken_invalid_lane rfl hbad, decodeToken_invalid_lane rfl (hmask ▸ hbad), hmask]

/-- Settles O33: an accepted token is the characters of some `W`, and the bytes of the payload of `W` are those of
the five windows of four sextets and of the last two. -/
theorem decodeAgreesWithTheWindowForm : Obligations.DecodeAgreesWithTheWindowForm := by
  intro strict tok hok
  obtain ⟨w, rfl, hpad⟩ := decodeToken_ok_iff.mp hok
  have hlane (k : SymbolLane) : (dlutRead (symbolLane (charsOf w) k)).value = sextetLane w k := by
    rw [charsOf_lane, dlutRead_elutRead]
  have hbus : (packSextets fun k => sextetLane w (Fin.ofNat 22 k.val)) = w := by
    simp only [Fin.ofNat_eq_cast, Fin.cast_val_eq_self]
    exact packSextets_sextetLane w
  simp only [decodeToken_charsOf hpad, successfulDecode, hlane, hbus]
  refine ⟨rfl, payload_byte_eq_decodeWindowByte w, fun i => ?_, payload_byte15 w, fun hstrict => ?_⟩
  · exact ⟨payload_byte_of_window w i.isLt 0, payload_byte_of_window w i.isLt 1, payload_byte_of_window w i.isLt 2⟩
  · exact (paddingBits_eq_lane w).symm.trans (hpad hstrict)

/-- Settles O37: this is what `writeDecResult` writes, and a failed decode leaves no identifier and no sextets. -/
theorem decWritesTheVerdict : Obligations.DecWritesTheVerdict :=
  fun _ _ _ => ⟨rfl, fun herr => (decodeToken_of_err_ne herr).2⟩

/-- Settles O38: this is what `clearDecValid` writes. -/
theorem decIdleClearsOnlyTheValidFlag : Obligations.DecIdleClearsOnlyTheValidFlag :=
  fun _ => rfl

/-- Settles O39: the next state of DEC and that of DEC_IDLE differ from `s` in the decoder's registers only. -/
theorem decoderOperationsFrame : Obligations.DecoderOperationsFrame := by
  intro i s t hi hexec
  rcases isDecOp_cases hi with ⟨len, tok, rfl⟩ | rfl
  · obtain rfl := Host.Outcome.next.inj ((decWritesTheVerdict len tok s).1.symm.trans hexec)
    exact ⟨⟨rfl, rfl, rfl, rfl, rfl⟩, nofun⟩
  · obtain rfl := Host.Outcome.next.inj ((decIdleClearsOnlyTheValidFlag s).symm.trans hexec)
    exact ⟨⟨rfl, rfl, rfl, rfl, rfl⟩, fun _ => ⟨rfl, rfl, rfl, rfl, rfl⟩⟩

end Sys2Proof.Proofs

/-! # The exceptions family (60_exceptions.md): lemmas and the statements they settle -/

namespace Sys2Proof.Proofs

open Sys2Proof.Machine Sys2Proof.Laws

/-! ## The verdict of `Decode`, code by code (60_exceptions.md R140) -/

section CodeRows

variable {strict : Bool} {len : TokenLength} {tok : CharBus}

theorem decodeToken_err_none_iff :
    (decodeToken strict len tok).err = errNone ↔
      len = 22#8 ∧ badLanes tok = 0#22 ∧ (strict = true → paddingBits (lookedUpSextets tok) = 0#4) := by
  rcases decodeToken_cases strict len tok with
    ⟨hlen, h⟩ | ⟨-, hbad, h⟩ | ⟨-, -, hstrict, hpad, h⟩ | ⟨hlen, hbad, hpad, h⟩ <;> rw [h]
  · exact iff_of_false (show errInvalidLength ≠ errNone by decide) fun ⟨heq, _⟩ => hlen heq
  · exact iff_of_false (show errInvalidSymbol ≠ errNone by decide) fun ⟨_, hzero, _⟩ => hbad hzero
  · exact iff_of_false (show errInvalidPadding ≠ errNone by decide) fun ⟨_, _, hzero⟩ => hpad (hzero hstrict)
  · exact iff_of_true rfl ⟨hlen, hbad, hpad⟩

theorem decodeToken_of_err_none (h : (decodeToken strict len tok).err = errNone) :
    decodeToken strict len tok = successfulDecode (lookedUpSextets tok) := by
  obtain ⟨hlen, hbad, hpad⟩ := decodeToken_err_none_iff.mp h
  cases strict with
  | false => exact decodeToken_success hlen hbad (.inl rfl)
  | true => exact decodeToken_success hlen hbad (.inr (hpad rfl))

theorem decodeToken_of_err_length (h : (decodeToken strict len tok).err = errInvalidLength) :
    decodeToken strict len tok = failedDecode errInvalidLength 0#22 :=
  decodeToken_length_ne (decodeToken_err_length_iff.mp h)

theorem decodeToken_of_err_symbol (h : (decodeToken strict len tok).err = errInvalidSymbol) :
    decodeToken strict len tok = failedDecode errInvalidSymbol (badLanes tok) := by
  obtain ⟨hlen, hbad⟩ := decodeToken_err_symbol_iff.mp h
  exact decodeToken_invalid_lane hlen hbad

theorem decodeToken_of_err_padding (h : (decodeToken strict len tok).err = errInvalidPadding) :
    decodeToken strict len tok = failedDecode errInvalidPadding 0#22 := by
  obtain ⟨hstrict, hlen, hbad, hpad⟩ := decodeToken_err_padding_iff.mp h
  exact decodeToken_invalid_padding hlen hbad hstrict hpad

/-- The padding bits are those of the last character's index (60_exceptions.md R143). -/
theorem paddingBits_lookedUpSextets :
    paddingBits (lookedUpSextets tok) = (dlutRead (symbolLane tok 21)).value.extractLsb' 0 4 := by
  rw [paddingBits_eq_lane, lookedUpSextets_lane, laneEntry]

end CodeRows

theorem failedDecode_fields {r : DecResult} {err : ErrCode} {bad : BadMask} (h : r = failedDecode err bad) :
    r.ok = 0#1 ∧ r.id = 0#128 ∧ r.sex = 0#132 ∧ r.bad = bad := by
  rw [h]
  exact ⟨rfl, rfl, rfl, rfl⟩

theorem successfulDecode_fields {r : DecResult} {w : SextetBus} (h : r = successfulDecode w) :
    r.ok = 1#1 ∧ r.id = payloadBits w ∧ r.sex = w ∧ r.bad = 0#22 := by
  rw [h]
  exact ⟨rfl, rfl, rfl, rfl⟩

/-- Only DEC and RESET write the verdict and its data. -/
theorem exec_keeps_verdict {i : Instr} {s t : State} (hexec : exec i s = .next t)
    (hdec : ∀ len tok, i ≠ .dec len tok) (hreset : i ≠ .reset) :
    t.D_OK = s.D_OK ∧ t.D_ERR = s.D_ERR ∧ t.D_ID = s.D_ID ∧ t.D_SEX = s.D_SEX ∧ t.D_BAD = s.D_BAD := by
  rcases exec_cases i s with ⟨id, -, h⟩ | ⟨-, h⟩ | ⟨len, tok, hi, -⟩ | ⟨-, h⟩ | ⟨hi, -⟩
  case inr.inr.inl => exact absurd hi (hdec len tok)
  case inr.inr.inr.inr => exact absurd hi hreset
  all_goals
    obtain rfl := Host.Outcome.next.inj (h.symm.trans hexec)
    exact ⟨rfl, rfl, rfl, rfl, rfl⟩

/-! ## The statements -/

/-- Settles O40: each row is the cause of its code and the record that `Decode` answers with it. -/
theorem errorCodeTableHolds : Obligations.ErrorCodeTableHolds := by
  refine ⟨?_, fun i s t => exec_keeps_verdict, rfl, rfl⟩
  intro len tok s v W
  refine ⟨_, (decWritesTheVerdict len tok s).1, ?_⟩
  have hvalid : badLanes tok = 0#22 ↔ ∀ k, v k = 1#1 := badLanes_eq_zero_iff tok
  have hinvalid : badLanes tok ≠ 0#22 ↔ ∃ k, v k = 0#1 := badLanes_ne_zero_iff
  rw [← hvalid, ← hinvalid]
  refine ⟨(decodeToken_sound _ len tok).success_iff, decodeToken_err_none_iff, fun h => ?_,
    decodeToken_err_length_iff, fun h => ?_, decodeToken_err_symbol_iff, fun h => ?_,
    decodeToken_err_padding_iff, fun h => ?_⟩
  · exact successfulDecode_fields (decodeToken_of_err_none h)
  · exact failedDecode_fields (decodeToken_of_err_length h)
  · obtain ⟨hok, hid, hsex, hbad⟩ := failedDecode_fields (decodeToken_of_err_symbol h)
    refine ⟨hok, hid, hsex, hbad ▸ (decodeToken_err_symbol_iff.mp h).2, fun k => ?_⟩
    exact hbad ▸ badLanes_maskLane tok k
  · exact failedDecode_fields (decodeToken_of_err_padding h)

/-- Settles O41: every wrong length has the one record of InvalidLength, which no character enters. -/
theorem wrongLengthIsInvalidLength : Obligations.WrongLengthIsInvalidLength := by
  refine fun strict len tok => ⟨decodeToken_err_length_iff, fun hlen => ⟨?_, fun len' tok' hlen' => ?_⟩⟩
  · rw [decodeToken_length_ne hlen, failedDecode]
  · rw [decodeToken_length_ne hlen, decodeToken_length_ne hlen']

/-- Settles O42: InvalidSymbol has a nonzero mask of invalid lanes for its cause, and records that mask. -/
theorem invalidLaneIsInvalidSymbol : Obligations.InvalidLaneIsInvalidSymbol := by
  refine fun strict len tok => ⟨?_, fun h k => ?_⟩
  · exact decodeToken_err_symbol_iff.trans (and_congr_right' badLanes_ne_zero_iff)
  · exact decodeToken_bad_of_err_symbol h ▸ badLanes_maskLane tok k

/-- Settles O43: the record of InvalidPadding is empty, and without the padding check the same token meets every
condition of a success. -/
theorem nonzeroPaddingIsInvalidPadding : Obligations.NonzeroPaddingIsInvalidPadding := by
  intro strict len tok W
  refine ⟨?_, fun h => ?_⟩
  · have hvalid : badLanes tok = 0#22 ↔ ∀ k, (dlutRead (symbolLane tok k)).valid = 1#1 := badLanes_eq_zero_iff tok
    rw [← hvalid, ← paddingBits_lookedUpSextets]
    exact decodeToken_err_padding_iff
  · obtain ⟨-, hlen, hbad, -⟩ := decodeToken_err_padding_iff.mp h
    obtain ⟨hok, hid, hsex, hmask⟩ := failedDecode_fields (decodeToken_of_err_padding h)
    have hlenient : decodeToken false len tok = successfulDecode W := decodeToken_success hlen hbad (.inl rfl)
    rw [hlenient]
    exact ⟨hok, hid, hsex, hmask, rfl, rfl, rfl, rfl, rfl⟩

/-- Settles O44: along the chain each condition is the cause of its code once the earlier causes are absent. -/
theorem firstCauseWins : Obligations.FirstCauseWins := by
  intro strict len tok
  split_ifs with hlen hinvalid hpad
  · exact decodeToken_err_length_iff.mpr hlen
  all_goals replace hlen : len = 22#8 := not_not.mp hlen
  · exact decodeToken_err_symbol_iff.mpr ⟨hlen, badLanes_ne_zero_iff.mpr hinvalid⟩
  all_goals have hbad : badLanes tok = 0#22 := not_not.mp (mt badLanes_ne_zero_iff.mp hinvalid)
  · obtain ⟨hstrict, hne⟩ := hpad
    exact decodeToken_err_padding_iff.mpr ⟨hstrict, hlen, hbad, paddingBits_lookedUpSextets.trans_ne hne⟩
  · refine decodeToken_err_none_iff.mpr ⟨hlen, hbad, fun hstrict => ?_⟩
    exact paddingBits_lookedUpSextets.trans (not_not.mp fun hne => hpad ⟨hstrict, hne⟩)

/-- Settles O45: DEC computes the six registers from its operands and the parameter alone. -/
theorem errorsAreNotSticky : Obligations.ErrorsAreNotSticky := by
  intro len tok s s' hstrict
  refine ⟨_, _, (decWritesTheVerdict len tok s).1, (decWritesTheVerdict len tok s').1, ?_⟩
  rw [hstrict]
  exact ⟨rfl, rfl, rfl, rfl, rfl, rfl⟩

end Sys2Proof.Proofs

/-! # The reset and hazards family (70_reset_and_hazards.md): lemmas and the statements they settle -/

namespace Sys2Proof.Proofs

open Sys2Proof.Machine Sys2Proof.Laws

/-! ## Lines of the notation and the edges they are (30_encoding.md R78) -/

/-- Placing operations on a line declares no token. -/
theorem foldl_placeOp_text (ops : List Instr) (v : EdgeInput) : (ops.foldl placeOp v).text = v.text := by
  induction ops generalizing v with
  | nil => rfl
  | cons i ops ih =>
    rw [List.foldl_cons, ih]
    cases i <;> rfl

theorem hostDutyBroken_of_no_text {v : EdgeInput} (h : v.text = none) : hostDutyBroken v = none := by
  rw [hostDutyBroken, h]

/-- The line of well-formed operations is an edge that runs them. -/
theorem step_encodeEdge {s : State} {ops : List Instr} {rest : List EdgeInput} (hwf : edgeOpsWf ops = true)
    (hin : s.inputs = encodeEdge ops :: rest) : step s = runOps ops (withInputs rest s) :=
  step_of_decodeEdge hin (decodingUndoesEncoding.1 ops hwf)
    (hostDutyBroken_of_no_text (foldl_placeOp_text ops idleLine))

section NotatedEdges

variable {s : State} {rest : List EdgeInput} {x : Identifier} {len : TokenLength} {tok : CharBus}

theorem step_encLine (hin : s.inputs = encLine x :: rest) :
    step s = .next (clearDecValid (writeEncResult (encodeId x) (withInputs rest s))) :=
  step_encodeEdge rfl hin

theorem step_decLine (hin : s.inputs = decLine len tok :: rest) :
    step s = .next (writeDecResult (decodeToken s.STRICT_PADDING len tok) (clearEncValid (withInputs rest s))) :=
  step_encodeEdge rfl hin

theorem step_encDecLine (hin : s.inputs = encDecLine x len tok :: rest) :
    step s = .next (writeDecResult (decodeToken s.STRICT_PADDING len tok)
      (writeEncResult (encodeId x) (withInputs rest s))) :=
  step_encodeEdge rfl hin

end NotatedEdges

/-! ## Idle edges and valid flags (70_reset_and_hazards.md R167, R168) -/

section Edges

variable {s t : State} {v : EdgeInput} {rest : List EdgeInput}

/-- Without a request the encoder is left as ENC_IDLE leaves it. -/
theorem encoderRegs_idle_edge (hin : s.inputs = v :: rest) (hstep : step s = .next t) (hrst : v.rst = some 0#1)
    (hreq : v.enc_req = some 0#1) : encoderRegs t = encoderRegs (clearEncValid s) := by
  rw [encoderRegs_step hin hstep, hrst, hreq]
  rfl

/-- Without a request the decoder is left as DEC_IDLE leaves it. -/
theorem decoderRegs_idle_edge (hin : s.inputs = v :: rest) (hstep : step s = .next t) (hrst : v.rst = some 0#1)
    (hreq : v.dec_req = some 0#1) : decoderRegs t = decoderRegs (clearDecValid s) := by
  rw [decoderRegs_step hin hstep, hrst, hreq]
  rfl

theorem step_rst_defined (hin : s.inputs = v :: rest) (hstep : step s = .next t) :
    v.rst = some 1#1 ∨ v.rst = some 0#1 := by
  obtain ⟨v', rest', hin', hedge⟩ := edge_cases hstep
  obtain ⟨rfl, rfl⟩ := List.cons.inj (hin.symm.trans hin')
  exact hedge.imp And.left And.left

theorem step_E_VLD (hin : s.inputs = v :: rest) (hstep : step s = .next t) :
    t.E_VLD = if v.rst = some 0#1 ∧ v.enc_req = some 1#1 then 1#1 else 0#1 := by
  have hvld : t.E_VLD = (encoderNext v.rst v.enc_req v.enc_id (encoderRegs s)).1 :=
    congrArg Prod.fst (encoderRegs_step hin hstep)
  rw [hvld, encoderNext]
  rcases step_rst_defined hin hstep with hrst | hrst
  · simp [hrst]
  · simp [hrst, apply_ite Prod.fst]

theorem step_D_VLD (hin : s.inputs = v :: rest) (hstep : step s = .next t) :
    t.D_VLD = if v.rst = some 0#1 ∧ v.dec_req = some 1#1 then 1#1 else 0#1 := by
  have hvld : t.D_VLD = (decoderNext s.STRICT_PADDING v.rst v.dec_req v.dec_len v.dec_tok (decoderRegs s)).1 :=
    congrArg Prod.fst (decoderRegs_step hin hstep)
  rw [hvld, decoderNext]
  rcases step_rst_defined hin hstep with hrst | hrst
  · simp [hrst]
  · simp [hrst, apply_ite Prod.fst]

end Edges

/-- A wire driven by a condition is 1 exactly when it holds and 0 exactly when not. -/
theorem bit_of_condition {b : Bit} {p : Prop} [Decidable p] (h : b = if p then 1#1 else 0#1) :
    (b = 1#1 ↔ p) ∧ (b = 0#1 ↔ ¬ p) := by
  rw [h]
  split_ifs with hp
  · exact ⟨iff_of_true rfl hp, iff_of_false (by decide) (not_not.mpr hp)⟩
  · exact ⟨iff_of_false (by decide) hp, iff_of_true rfl hp⟩

/-! ## Runs (70_reset_and_hazards.md R169, R172) -/

theorem observeEdges_of_step {s t : State} (n : Nat) (h : step s = .next t) :
    observeEdges (n + 1) s = t.outputs :: observeEdges n t := by
  simp only [observeEdges, h]

theorem run_of_accepted {lines : List EdgeInput} {s : State} (hin : s.inputs = lines)
    (haccepted : ∀ v ∈ lines, lineAccepted v = true) :
    ∃ t : State, Host.Core.run core lines.length s = .next t ∧ t.inputs = [] ∧
      (observeEdges lines.length s).length = lines.length := by
  induction lines generalizing s with
  | nil => exact ⟨s, rfl, hin, rfl⟩
  | cons v rest ih =>
    obtain ⟨hv, hrest⟩ := List.forall_mem_cons.mp haccepted
    obtain ⟨u, hstep, -, hlines, -⟩ := step_of_accepted hin hv
    obtain ⟨t, hrun, hend, hobs⟩ := ih hlines hrest
    refine ⟨t, (core_run_of_step rest.length hstep).trans hrun, hend, ?_⟩
    rw [List.length_cons, observeEdges_of_step _ hstep, List.length_cons, hobs]

/-! ## The host's duties (70_reset_and_hazards.md R164, R165, 93_implementation_defined.md I11, I12) -/

theorem saturatedLength_toNat (n : Nat) : (saturatedLength n).toNat = min n 255 := by
  rw [saturatedLength, BitVec.toNat_ofNat]
  omega

theorem presentedCode_toNat {c : Nat} (h : c ≤ 0xFF) : (presentedCode c).toNat = c := by
  rw [presentedCode, if_pos h, BitVec.toNat_ofNat]
  omega

/-- The check of a line that performs a DEC of 22 characters and declares its token. -/
theorem hostDutyBroken_of_declared {v : EdgeInput} {cs : List Nat} {tok : CharBus} (hrst : v.rst = some 0#1)
    (hreq : v.dec_req = some 1#1) (hlen : v.dec_len = some 22#8) (htok : v.dec_tok = some tok)
    (htext : v.text = some cs) :
    hostDutyBroken v = if cs.length ≠ 22 then some .lengthNotSaturated
      else if acceptsWideCharacter cs tok then some .wideCharacterAccepted else none := by
  simp [hostDutyBroken, performsDec, hrst, hreq, hlen, htok, htext]

theorem acceptsWideCharacter_of_lane {cs : List Nat} {tok : CharBus} {k : SymbolLane} {c : Nat}
    (hc : cs[k.val]? = some c) (hwide : 0xFF < c) (hvalid : (dlutRead (symbolLane tok k)).valid = 1#1) :
    acceptsWideCharacter cs tok = true :=
  List.any_eq_true.mpr ⟨k, List.mem_finRange k, by simp [hc, hwide, hvalid]⟩

/-- A line that decodes but breaks a host duty is refused for that duty. -/
theorem step_of_hostDutyBroken {s : State} {v : EdgeInput} {rest : List EdgeInput} {ops : List Instr}
    {why : InputReject} (hin : s.inputs = v :: rest) (hops : decodeEdge v = .ok ops)
    (hduty : hostDutyBroken v = some why) : step s = .refused (.inputRejected why) := by
  simp only [step, hin, sampleEdge, hops, hduty]

/-! ## The statements -/

/-- Settles O48: each line of the notation is an edge with known writes, and decoding undoes encoding under both values
of the parameter. -/
theorem feedbackDecodesTheEarlierEdge : Obligations.FeedbackDecodesTheEarlierEdge := by
  intro s x rest
  constructor
  · intro tok hin
    refine ⟨_, step_encLine hin, rfl, rfl, ?_⟩
    intro htok
    obtain rfl : tok = (encodeId x).chr := htok
    refine ⟨_, step_decLine rfl, rfl, ?_⟩
    have hverdict := decodeUndoesEncode s.STRICT_PADDING x
    exact ⟨congrArg DecResult.ok hverdict, congrArg DecResult.err hverdict, congrArg DecResult.id hverdict⟩
  · intro hin
    exact ⟨_, step_encDecLine hin, rfl, rfl, rfl⟩

/-- Settles O49: an idle edge leaves a channel as its idle operation does, which writes the valid flag only. -/
theorem resultsHoldUntilTheNextRequest : Obligations.ResultsHoldUntilTheNextRequest := by
  intro s t v rest hin hstep
  constructor
  · intro hrst hreq
    exact (encoderRegs_eq_iff.mp (encoderRegs_idle_edge hin hstep hrst hreq)).2
  · intro hrst hreq
    exact (decoderRegs_eq_iff.mp (decoderRegs_idle_edge hin hstep hrst hreq)).2

/-- Settles O50: each valid flag is driven by the condition that its channel was requested. -/
theorem validFlagsArePulses : Obligations.ValidFlagsArePulses := by
  intro s t v rest hin hstep
  obtain ⟨hencOne, hencZero⟩ := bit_of_condition (step_E_VLD hin hstep)
  exact ⟨hencOne, hencZero, bit_of_condition (step_D_VLD hin hstep)⟩

/-- Settles O55: by induction on the lines, each of which is an edge that completes and leaves the rest. -/
theorem runOfAcceptedLinesCompletes : Obligations.RunOfAcceptedLinesCompletes :=
  fun _ => run_of_accepted rfl

/-- Settles O46: this is what `resetRegisters` writes. -/
theorem resetClearsEveryRegister : Obligations.ResetClearsEveryRegister :=
  fun _ => rfl

/-- Settles O47: an edge with `rst` = 1 performs RESET alone, which leaves of the state only the parameter. -/
theorem resetEdgeDropsRequests : Obligations.ResetEdgeDropsRequests :=
  fun _ _ _ _ _ => step_of_rst

/-- Settles O51: the value presented is the smaller of the length and 255. -/
theorem presentedLengthIsSaturated : Obligations.PresentedLengthIsSaturated := by
  refine ⟨fun n hn => ?_, fun n hn => ?_, fun n => mt (saturatedLength_eq_iff n).mp⟩
  · rw [saturatedLength_toNat, Nat.min_eq_left (by omega)]
  · rw [saturatedLength, Nat.min_eq_right hn]

/-- Settles O52: a code of 8 bits is presented as it is, and 0xFF has the sentinel. -/
theorem wideCharactersArePresentedAsSentinels : Obligations.WideCharactersArePresentedAsSentinels :=
  ⟨fun _ => presentedCode_toNat, fun _ => presentedCode_wide⟩

/-- Settles O54: the check of such a line finds the wrong length first, else the wide character in its lane. -/
theorem brokenHostDutyIsRefused : Obligations.BrokenHostDutyIsRefused := by
  intro s v rest ops cs tok hin hops hrst hreq hlen htok htext
  have hduty := hostDutyBroken_of_declared hrst hreq hlen htok htext
  refine ⟨fun hne => ?_, fun k c h22 hc hwide hvalid => ?_⟩
  · rw [if_pos hne] at hduty
    exact step_of_hostDutyBroken hin hops hduty
  · rw [if_neg (not_not.mpr h22), if_pos (acceptsWideCharacter_of_lane hc hwide hvalid)] at hduty
    exact step_of_hostDutyBroken hin hops hduty

/-- Settles O56: a step without a line has nothing to sample. -/
theorem runEndsAfterItsLastLine : Obligations.RunEndsAfterItsLastLine := by
  intro s hin
  simp only [step, hin]

end Sys2Proof.Proofs
